-- ==== Sys2Proof/Word.lean ====
section
/-! DEFINITION. The word types: the 8-bit entropy byte, the 32-bit host word, the 256-bit storage cell, the register
index (00_scope.md R12). All values are unsigned (R13). -/

namespace Sys2Proof

/-- One byte of an entropy answer (41_sampling.md R190). -/
abbrev Byte := BitVec 8

/-- One host bus word, one host register, one command word (00_scope.md R12). -/
abbrev Word32 := BitVec 32

/-- One raw 256-bit pattern: a field register or a coordinate of a share (10_state.md R33, R35). -/
abbrev Word256 := BitVec 256

/-- An index into the field register file; all 16 values are legal (30_encoding.md R122). -/
abbrev RegIdx := Fin 16

/-- A host byte address inside the 4 KiB window (20_memory.md R90). -/
abbrev Addr := BitVec 12

end Sys2Proof
end

