-- ==== Sys2Proof/Syntax.lean ====
section
/-! DEFINITION. The ten commands, one constructor per row of spec/opcode_table.json (30_encoding.md R126), operands in
the order of the assembler syntax (R130). A register operand is an index below 16 by its type (R122), so no term of
Instr is ill-formed; what can be ill-formed is a command WORD (Sys2Proof/WellFormed.lean). -/

namespace Sys2Proof

inductive Instr where
  | nop
  | add (rd ra rb : RegIdx)
  | sub (rd ra rb : RegIdx)
  | mul (rd ra rb : RegIdx)
  | inv (rd ra : RegIdx)
  | div (rd ra rb : RegIdx)
  | rand (rd : RegIdx)
  | randnz (rd : RegIdx)
  | generate (ra : RegIdx)
  | reconstruct (rd : RegIdx)
  deriving DecidableEq, Repr

end Sys2Proof
end

