-- ==== Sys2Proof/WellFormed.lean ====
section
/-! DEFINITION. When a command word is legal, written a second time and apart from the decoder: by the three
conditions of 30_encoding.md R128 over the operand formats of R124, and by the match and mask columns of R126. The
decoder (Sys2Proof/Decode.lean) uses neither; that the three agree is stated as obligations. -/

namespace Sys2Proof

/-- The five operand formats of 30_encoding.md R124. -/
inductive Format where
  | n | r3 | r2 | r1 | a
  deriving DecidableEq, Repr

/-- One row of the opcode map, 30_encoding.md R126. -/
structure OpcodeRow where
  opc       : BitVec 8
  mnemonic  : String
  format    : Format
  matchWord : Word32
  mask      : Word32
  deriving DecidableEq, Repr

/-- The opcode map of 30_encoding.md R126, row by row. -/
def opcodeTable : List OpcodeRow :=
  [ ⟨0x00, "NOP",         .n,  0x00000000, 0xFFFFFFFF⟩,
    ⟨0x01, "ADD",         .r3, 0x00000001, 0xFFF000FF⟩,
    ⟨0x02, "SUB",         .r3, 0x00000002, 0xFFF000FF⟩,
    ⟨0x03, "MUL",         .r3, 0x00000003, 0xFFF000FF⟩,
    ⟨0x04, "INV",         .r2, 0x00000004, 0xFFFF00FF⟩,
    ⟨0x05, "DIV",         .r3, 0x00000005, 0xFFF000FF⟩,
    ⟨0x10, "RAND",        .r1, 0x00000010, 0xFFFFF0FF⟩,
    ⟨0x11, "RANDNZ",      .r1, 0x00000011, 0xFFFFF0FF⟩,
    ⟨0x20, "GENERATE",    .a,  0x00000020, 0xFFFF0FFF⟩,
    ⟨0x21, "RECONSTRUCT", .r1, 0x00000021, 0xFFFFF0FF⟩ ]

/-- The bits a format requires to be 0 (30_encoding.md R124). -/
def Format.unusedMask : Format → Word32
  | .n  => 0x000FFF00
  | .r3 => 0x00000000
  | .r2 => 0x000F0000
  | .r1 => 0x000FF000
  | .a  => 0x000F0F00

/-- The row whose OPC is bits 7:0 of w (30_encoding.md R121). -/
def rowOf (w : Word32) : Option OpcodeRow := opcodeTable.find? (fun row => row.opc == w.extractLsb' 0 8)

/-- Not 30_encoding.md R128 (a): bits 31:20 are 0. -/
def reservedClear (w : Word32) : Bool := w &&& 0xFFF00000 == 0

/-- Not 30_encoding.md R128 (b): bits 7:0 are one of the ten opcodes. -/
def opcodeAssigned (w : Word32) : Bool := (rowOf w).isSome

/-- Not 30_encoding.md R128 (c): every field the format does not use is 0 (vacuous for an unassigned opcode). -/
def unusedClear (w : Word32) : Bool :=
  match rowOf w with
  | some row => w &&& row.format.unusedMask == 0
  | none     => true

/-- A legal command word by 30_encoding.md R128: none of (a), (b), (c) holds. -/
def wellFormed (w : Word32) : Bool := reservedClear w && opcodeAssigned w && unusedClear w

/-- A word that selects a row of 30_encoding.md R126: `(w & mask) == match` for some row. -/
def inTable (w : Word32) : Bool := opcodeTable.any (fun row => w &&& row.mask == row.matchWord)

end Sys2Proof
end

