-- ==== Sys2Proof/Decode.lean ====
section
/-! DEFINITION. The decoder of 30_encoding.md R127, total on every 32-bit word and rejecting by name, and after it the
encoder of R130. A command word is one bus word (R129), so no byte order enters. -/

namespace Sys2Proof

/-- Why a command word is illegal: the three cases of 30_encoding.md R128. -/
inductive IllegalReason where
  | reservedBits
  | unassignedOpcode
  | unusedField
  deriving DecidableEq, Repr

/-- OPC, bits 7:0 (30_encoding.md R120). -/
def opcField (w : Word32) : BitVec 8 := w.extractLsb' 0 8

/-- RD, bits 11:8 (30_encoding.md R120, R122). -/
def rdField (w : Word32) : RegIdx := (w.extractLsb' 8 4).toFin

/-- RA, bits 15:12 (30_encoding.md R120, R122). -/
def raField (w : Word32) : RegIdx := (w.extractLsb' 12 4).toFin

/-- RB, bits 19:16 (30_encoding.md R120, R122). -/
def rbField (w : Word32) : RegIdx := (w.extractLsb' 16 4).toFin

/-- RSV, bits 31:20 (30_encoding.md R120, R123). -/
def rsvField (w : Word32) : BitVec 12 := w.extractLsb' 20 12

/-- A command whose format leaves some fields unused: legal only when they are 0 (30_encoding.md R124). -/
def requireZero (unused : Bool) (i : Instr) : Except IllegalReason Instr :=
  if unused then .ok i else .error .unusedField

/-- The decode of 30_encoding.md R127: reserved bits, then the opcode, then the unused fields. -/
def decodeWord (w : Word32) : Except IllegalReason Instr :=
  if rsvField w ≠ 0 then .error .reservedBits
  else match (opcField w).toNat with
  | 0x00 => requireZero (rdField w == 0 && raField w == 0 && rbField w == 0) .nop
  | 0x01 => .ok (.add (rdField w) (raField w) (rbField w))
  | 0x02 => .ok (.sub (rdField w) (raField w) (rbField w))
  | 0x03 => .ok (.mul (rdField w) (raField w) (rbField w))
  | 0x04 => requireZero (rbField w == 0) (.inv (rdField w) (raField w))
  | 0x05 => .ok (.div (rdField w) (raField w) (rbField w))
  | 0x10 => requireZero (raField w == 0 && rbField w == 0) (.rand (rdField w))
  | 0x11 => requireZero (raField w == 0 && rbField w == 0) (.randnz (rdField w))
  | 0x20 => requireZero (rdField w == 0 && rbField w == 0) (.generate (raField w))
  | 0x21 => requireZero (raField w == 0 && rbField w == 0) (.reconstruct (rdField w))
  | _    => .error .unassignedOpcode

/-- The command of a word, or none where the word is illegal (30_encoding.md R127, R128). -/
def decode (w : Word32) : Option Instr :=
  match decodeWord w with
  | .ok i    => some i
  | .error _ => none

/-- `enc(OPC, rd, ra, rb) = OPC | (rd << 8) | (ra << 12) | (rb << 16)` (30_encoding.md R130). -/
def encodeFields (opc : Nat) (rd ra rb : RegIdx) : Word32 :=
  BitVec.ofNat 32 opc ||| (BitVec.ofNat 32 rd.val <<< 8) ||| (BitVec.ofNat 32 ra.val <<< 12)
    ||| (BitVec.ofNat 32 rb.val <<< 16)

/-- The assembled word of a command, unused fields 0 (30_encoding.md R126, R130). -/
def encode : Instr → Word32
  | .nop            => encodeFields 0x00 0 0 0
  | .add rd ra rb   => encodeFields 0x01 rd ra rb
  | .sub rd ra rb   => encodeFields 0x02 rd ra rb
  | .mul rd ra rb   => encodeFields 0x03 rd ra rb
  | .inv rd ra      => encodeFields 0x04 rd ra 0
  | .div rd ra rb   => encodeFields 0x05 rd ra rb
  | .rand rd        => encodeFields 0x10 rd 0 0
  | .randnz rd      => encodeFields 0x11 rd 0 0
  | .generate ra    => encodeFields 0x20 0 ra 0
  | .reconstruct rd => encodeFields 0x21 rd 0 0

/-- What the decoder reads from a command whose table bits are w: every command is one 32-bit word (30_encoding.md
R129), bits above nbits are 0. -/
def decodeTableWord (nbits w : Nat) : Option Instr := decode (BitVec.ofNat 32 (w % 2 ^ nbits))

end Sys2Proof
end

