-- ==== Sys2Proof/Config.lean ====
section
/-! DEFINITION. What is fixed for the machine: the prime (00_scope.md R3), the parameters (R11) and the interface
constants (10_state.md R62, R63); the turns of the environment, and the one free value, the turn no list names (log entry
18). The spec leaves no RESULT of a command open. -/

namespace Sys2Proof

/-- The one modulus, by the formula of 00_scope.md R3 (90_conflicts.md C1: the formula governs). -/
def PRIME : Nat := 2 ^ 256 - 2 ^ 32 - 2 ^ 9 - 2 ^ 8 - 2 ^ 7 - 2 ^ 6 - 2 ^ 4 - 1

/-- INV_ALGO, the algorithm of the inverse engine (00_scope.md R11). -/
inductive InvAlgo where
  | extGcd
  | fermat
  deriving DecidableEq, Repr

/-- The named parameters, fixed for one part; no step changes them (70_reset_and_hazards.md R301). -/
structure Params where
  /-- MAX_SHARES (00_scope.md R11). -/
  maxShares : Nat
  /-- INV_ALGO (00_scope.md R11). -/
  invAlgo   : InvAlgo
  /-- BLOCK_BASE, where the register window sits in the host's address space (20_memory.md R98). -/
  blockBase : Nat
  deriving DecidableEq, Repr

/-- The legal range of MAX_SHARES (00_scope.md R11). -/
abbrev Params.legal (p : Params) : Prop := 2 ≤ p.maxShares ∧ p.maxShares ≤ 65535

/-- MAX_SHARES at the value this spec takes, 256 (00_scope.md R11). INV_ALGO is open and unobservable
(40_field_arithmetic.md R165): EXT_GCD is SSS's own algorithm. BLOCK_BASE is the platform's choice and no rule depends on
it (20_memory.md R98): 0. DESIGN CHOICE, safe, log entry 2. -/
def Params.default : Params := { maxShares := 256, invAlgo := .extGcd, blockBase := 0 }

/-- The address in the host's address space of an offset of the register window (20_memory.md R98). The block itself
sees offsets only. -/
def Params.busAddr (p : Params) (offset : Addr) : Nat := p.blockBase + offset.toNat

/-- ID, the letters "SSSC" (10_state.md R62). -/
def idWord : Word32 := 0x53535343

/-- CAPS = 0x00, 16 field registers, MAX_SHARES[15:0] (10_state.md R63). -/
def capsWord (p : Params) : Word32 := (0x00 : BitVec 8) ++ (0x10 : BitVec 8) ++ BitVec.ofNat 16 p.maxShares

namespace Machine

/-- One answer of the entropy source: 32 bytes B[0..31], or FAIL (41_sampling.md R190). -/
inductive Reply where
  | ok (b : Vector Byte 32)
  | fail
  deriving DecidableEq, Repr

/-- One host access, 32 bits at a byte address (20_memory.md R91). -/
inductive Access where
  | read (addr : Addr)
  | write (addr : Addr) (v : Word32)
  deriving DecidableEq, Repr, Inhabited

/-- One turn of one of the three agents (00_scope.md R19). An entropy turn answers the draw that is pending (`none`), or
the draw it names, so that an answer to a draw abandoned by a reset can be told from one to a later draw
(70_reset_and_hazards.md R302; log entry 4). -/
inductive Turn where
  | host (a : Access)
  | core
  | entropy (draw : Option Nat) (r : Reply)
  deriving DecidableEq, Repr, Inhabited

end Machine

/-- The n-th turn that State's lists of turns do not name: any turn of any agent, a free value (00_scope.md R19; log
entry 18). -/
opaque Config.freeTurn : Nat → Machine.Turn

end Sys2Proof
end

