-- ==== Sys2Proof/Machine/State.lean ====
section
/-! DEFINITION. The state of the block as plain data (10_state.md R30 to R74), the reasons a step can stop, and the
state after reset (10_state.md R76). -/

namespace Sys2Proof.Machine

/-- A store of 256-bit entries by entry number (share memory, coefficient store, batch buffer): numbers strictly
rising, no entry listed that holds 0, which is what an unlisted entry reads as (10_state.md R76). An entry is the
smallest unit the spec addresses there (20_memory.md R90); log entry 9. -/
abbrev Memory := List (Nat × Word256)

/-- The sequencer's phase (10_state.md R39); STATUS.BUSY is 1 exactly when it is exec (R54). -/
inductive Phase where
  | idle
  | exec
  deriving DecidableEq, Repr

/-- The error codes 0x01 to 0x07 (60_exceptions.md R270), in that order. -/
inductive CmdError where
  | invalidArgument
  | divisionByZero
  | malformedInput
  | randomnessUnavailable
  | illegalCommand
  | capacity
  | internalFault
  deriving DecidableEq, Repr

/-- The entropy request state `ereq` (10_state.md R40). -/
inductive DrawState where
  | none
  | pending
  deriving DecidableEq, Repr

/-- Where the running command stands in its pseudocode, with the local variables it holds there (10_state.md R39).
`start`: accepted, nothing executed. `sampling`: RAND's draw (41_sampling.md R195). `batchOne`: RANDNZ's
NonzeroBatch(1) (R196). `coeffs`, `xs`: GENERATE's two batches with its locals t, n and s (42_share_generation.md R211). -/
inductive Stage where
  | start
  | sampling
  | batchOne
  | coeffs (t n : Nat) (secret : Word256)
  | xs (t n : Nat) (secret : Word256)
  deriving DecidableEq, Repr

/-- The machine. -/
structure State where
  /-- MAX_SHARES, INV_ALGO and BLOCK_BASE: fixed inputs, changed by no step (10_state.md R30; log entry 2). -/
  params       : Params
  /-- F[0..15] (10_state.md R32). -/
  f            : Vector Word256 16
  /-- SX (10_state.md R35). -/
  sx           : Memory
  /-- SY (10_state.md R35). -/
  sy           : Memory
  /-- The coefficient store A (10_state.md R37). -/
  coeffA       : Memory
  /-- The batch buffer BUF (10_state.md R38). -/
  batchBuf     : Memory
  /-- phase, and with it STATUS.BUSY (10_state.md R39, R54). -/
  phase        : Phase
  /-- cur, the last accepted command word (10_state.md R39, R64). -/
  cur          : Word32
  /-- Place and locals of the running command (10_state.md R39). -/
  stage        : Stage
  /-- The index i of NonzeroBatch (41_sampling.md R194). -/
  loopIdx      : Nat
  /-- ndraws, the running command's successful draws (41_sampling.md R191). -/
  ndraws       : Nat
  /-- `answer`, the reply the running command has not used yet (41_sampling.md R191; log entry 5). -/
  reply        : Option Reply
  /-- ereq (10_state.md R40). -/
  ereq         : DrawState
  /-- STATUS.DONE (10_state.md R55). -/
  done         : Bool
  /-- STATUS.ERR (10_state.md R56). -/
  err          : Bool
  /-- STATUS.OVERRUN (10_state.md R57). -/
  overrun      : Bool
  /-- STATUS.FATAL (10_state.md R58). -/
  fatal        : Bool
  /-- ERRCODE.CODE, none for 0x00 (10_state.md R59). -/
  errcode      : Option CmdError
  /-- IE.DONE_IE (10_state.md R60). -/
  doneIE       : Bool
  /-- IE.ERR_IE (10_state.md R60). -/
  errIE        : Bool
  /-- GEN_T (10_state.md R65). -/
  genT         : Word32
  /-- GEN_N (10_state.md R66). -/
  genN         : Word32
  /-- REC_BASE (10_state.md R67). -/
  recBase      : Word32
  /-- REC_COUNT (10_state.md R68). -/
  recCount     : Word32
  /-- SIDX (10_state.md R69). -/
  sidx         : Word32
  /-- ENTROPY_COUNT (10_state.md R70). -/
  entropyCount : Word32
  /-- The number of the newest draw issued: the model's own, for pairing answers with requests (log entry 4). -/
  drawId       : Nat
  /-- What the host's last read returned: the model's own, the host's side of HostRead (log entry 6). -/
  hostData     : Word32
  /-- The turns still to come, first first: the model's own, the order of 20_memory.md R101 (log entry 1). -/
  schedule     : List Turn
  /-- The turns repeated for ever once schedule is used up: the model's own, the infinite executions of 44_control.md R255
  (log entry 1). -/
  cycle        : List Turn
  /-- How many free turns were taken: the model's own, the place in Config.freeTurn (log entry 18). -/
  freeTurns    : Nat
  deriving DecidableEq, Repr

/-- Why the machine stops with a fault. -/
inductive Fault where
  /-- INTERNAL_FAULT: the P(0) check of GENERATE or the inverse engine's self-check failed (60_exceptions.md R279).
  Raised by GENERATE, INV, DIV and RECONSTRUCT through the shared error entry. It carries the state the completion of
  44_control.md R253 leaves, FATAL set. Safe: a model "must treat it as a fault, never as a result to continue from"
  (R279), and under the invariant of Sys2Proof/Safety.lean it is never raised (log entry 7). -/
  | internalFault (left : State)
  deriving DecidableEq, Repr

/-- Why the model gives an instruction no meaning. -/
inductive Refusal where
  /-- No meaning written yet, by the table's mnemonic. Raised by no arm of exec at present. Safe: the run stops. -/
  | notModelled (mnemonic : String)
  deriving DecidableEq, Repr

/-- The machine right after reset: every field at the value of 10_state.md R76. The model's own fields: drawId 0,
hostData 0, no turn listed, no free turn taken; INV_ALGO at EXT_GCD and BLOCK_BASE at 0 (DESIGN CHOICE, log entries 1, 2,
4, 6 and 18). -/
def State.reset : State where
  params       := Params.default
  f            := Vector.replicate 16 0
  sx           := []
  sy           := []
  coeffA       := []
  batchBuf     := []
  phase        := .idle
  cur          := 0
  stage        := .start
  loopIdx      := 0
  ndraws       := 0
  reply        := none
  ereq         := .none
  done         := false
  err          := false
  overrun      := false
  fatal        := false
  errcode      := none
  doneIE       := false
  errIE        := false
  genT         := 0
  genN         := 0
  recBase      := 0
  recCount     := 0
  sidx         := 0
  entropyCount := 0
  drawId       := 0
  hostData     := 0
  schedule     := []
  cycle        := []
  freeTurns    := 0

end Sys2Proof.Machine
end

