-- ==== Sys2Proof/Machine/Field.lean ====
section
/-! DEFINITION. The field primitives on exact integers: fadd, fsub, fmul, the two inverse engines, fdiv
(40_field_arithmetic.md R151 to R155, R163, R164), the polynomial evaluator (42_share_generation.md R210), the
Lagrange interpolator (43_reconstruction.md R230) and the sampling of one entropy answer (41_sampling.md R192, R193). -/

namespace Sys2Proof.Machine

/-- `canon(v)` (00_scope.md R15, R16). -/
def canon (v : Nat) : Bool := decide (v < PRIME)

/-- modular_adder_256 (40_field_arithmetic.md R151). -/
def fadd (a b : Nat) : Nat :=
  let s := a + b
  if PRIME ≤ s then s - PRIME else s

/-- modular_subtractor_256 (40_field_arithmetic.md R152). -/
def fsub (a b : Nat) : Nat := if a < b then PRIME - b + a else a - b

/-- modular_multiplier_256: the exact product, then the reduction (40_field_arithmetic.md R153). -/
def fmul (a b : Nat) : Nat := a * b % PRIME

/-- The loop of 40_field_arithmetic.md R163: (r0, s0) when r1 reaches 0. r1 falls at every turn, so fuel above r1 is
never used up (log entry 15). -/
def euclidLoop : Nat → Nat → Nat → Int → Int → Nat × Int
  | 0, r0, _, s0, _ => (r0, s0)
  | fuel + 1, r0, r1, s0, s1 =>
    if r1 = 0 then (r0, s0)
    else euclidLoop fuel r1 (r0 - r0 / r1 * r1) s1 (s0 - ((r0 / r1 : Nat) : Int) * s1)

/-- The engine under INV_ALGO = EXT_GCD (40_field_arithmetic.md R163). -/
def invExtGcd (a : Nat) : Except CmdError Nat :=
  let out := euclidLoop (a + 1) PRIME a 0 1
  if out.1 = 1 then .ok (out.2 % (PRIME : Int)).toNat else .error .internalFault

/-- a^e mod PRIME by squaring, for e below 2^bits (40_field_arithmetic.md R164, "any exact modular exponentiation"). -/
def powMod : Nat → Nat → Nat → Nat
  | 0, _, _ => 1
  | bits + 1, a, e =>
    let h := powMod bits (fmul a a) (e / 2)
    if e % 2 = 1 then fmul a h else h

/-- The engine under INV_ALGO = FERMAT, with its self-check (40_field_arithmetic.md R164). -/
def invFermat (a : Nat) : Except CmdError Nat :=
  let b := powMod 256 a (PRIME - 2)
  if fmul a b = 1 then .ok b else .error .internalFault

/-- modular_inverse_engine (40_field_arithmetic.md R154, R163, R164). The callers have excluded a = 0. -/
def finv (alg : InvAlgo) (a : Nat) : Except CmdError Nat :=
  match alg with
  | .extGcd => invExtGcd a
  | .fermat => invFermat a

/-- `fdiv(a, b)`, with the zero test its callers make before they call finv (40_field_arithmetic.md R155, R162;
43_reconstruction.md R230). -/
def fdiv (alg : InvAlgo) (a b : Nat) : Except CmdError Nat :=
  if b = 0 then .error .divisionByZero
  else match finv alg b with
  | .error e => .error e
  | .ok c    => .ok (fmul a c)

/-- The inverse with the zero test of INV (40_field_arithmetic.md R161). -/
def finvChecked (alg : InvAlgo) (a : Nat) : Except CmdError Nat :=
  if a = 0 then .error .divisionByZero else finv alg a

/-- The pair (acc, pw) of PolyEval after its turn i (42_share_generation.md R210). -/
def polyLoop (a : Nat → Nat) (x : Nat) : Nat → Nat × Nat
  | 0 => (a 0, 1)
  | i + 1 =>
    match polyLoop a x i with
    | (acc, pw) => (fadd acc (fmul (a (i + 1)) (fmul pw x)), fmul pw x)

/-- `PolyEval(A, t, x)` (42_share_generation.md R210). -/
def polyEval (a : Nat → Nat) (t x : Nat) : Nat := (polyLoop a x (t - 1)).1

/-- The inner loop of Lagrange0: L times (0 - xi) / (xj - xi) over the listed i other than j (43_reconstruction.md R230). -/
def basisLoop (alg : InvAlgo) (xs : Nat → Nat) (j : Nat) : List Nat → Nat → Except CmdError Nat
  | [], l => .ok l
  | i :: is, l =>
    if i = j then basisLoop alg xs j is l
    else match fdiv alg (fsub 0 (xs i)) (fsub (xs j) (xs i)) with
    | .error e => .error e
    | .ok q    => basisLoop alg xs j is (fmul l q)

/-- The outer loop of Lagrange0 over the listed j (43_reconstruction.md R230). -/
def lagrangeLoop (alg : InvAlgo) (xs ys : Nat → Nat) (k : Nat) : List Nat → Nat → Except CmdError Nat
  | [], acc => .ok acc
  | j :: js, acc =>
    match basisLoop alg xs j (List.range k) 1 with
    | .error e => .error e
    | .ok l    => lagrangeLoop alg xs ys k js (fadd acc (fmul (ys j) l))

/-- `Lagrange0` over the k shares (xs j, ys j) (43_reconstruction.md R230). -/
def lagrange0 (alg : InvAlgo) (xs ys : Nat → Nat) (k : Nat) : Except CmdError Nat :=
  lagrangeLoop alg xs ys k (List.range k) 0

/-- `be256(B)`: B[0] is the most significant byte (41_sampling.md R192). -/
def be256 (b : Vector Byte 32) : Nat := b.toList.foldl (fun acc x => acc * 256 + x.toNat) 0

/-- `sample(B)` (41_sampling.md R193). -/
def sample (b : Vector Byte 32) : Nat := be256 b % PRIME

end Sys2Proof.Machine
end

