-- ==== Sys2Proof/Machine/Flags.lean ====
section
/-! DEFINITION. The flags: STATUS, ERRCODE, IE and IRQ as words and bits, and every way a flag changes (10_state.md R53
to R60, R74; 44_control.md R251, R253). -/

namespace Sys2Proof.Machine

/-- STATUS.BUSY (10_state.md R54). -/
def State.busy (s : State) : Bool := s.phase == .exec

/-- A flag at a bit position. -/
def bitAt (n : Nat) (b : Bool) : Word32 := if b then BitVec.ofNat 32 (2 ^ n) else 0

/-- STATUS as the host reads it (10_state.md R53). -/
def statusWord (s : State) : Word32 :=
  bitAt 0 s.busy ||| bitAt 1 s.done ||| bitAt 2 s.err ||| bitAt 3 s.overrun ||| bitAt 4 s.fatal

/-- The number of an error code (60_exceptions.md R270). -/
def CmdError.code : CmdError → BitVec 8
  | .invalidArgument       => 0x01
  | .divisionByZero        => 0x02
  | .malformedInput        => 0x03
  | .randomnessUnavailable => 0x04
  | .illegalCommand        => 0x05
  | .capacity              => 0x06
  | .internalFault         => 0x07

/-- ERRCODE as the host reads it: CODE in bits 7:0, 0 for no error (10_state.md R59). -/
def errcodeWord (s : State) : Word32 :=
  match s.errcode with
  | some e => e.code.setWidth 32
  | none   => 0

/-- IE as the host reads it (10_state.md R60). -/
def ieWord (s : State) : Word32 := bitAt 0 s.doneIE ||| bitAt 1 s.errIE

/-- The interrupt output, a level (10_state.md R74). -/
def State.irq (s : State) : Bool := (s.done && s.doneIE) || (s.err && s.errIE)

/-- A blocked access sets OVERRUN and does nothing else (10_state.md R57). -/
def setOverrun (s : State) : State := { s with overrun := true }

/-- A host write to STATUS: each W1C bit written as 1 is cleared, ERRCODE together with ERR (10_state.md R53, R55, R56,
R57). This is the block's acknowledgement of an error or a completion (60_exceptions.md R282). -/
def writeStatus (v : Word32) (s : State) : State :=
  { s with
    done    := s.done && !v.getLsbD 1
    err     := s.err && !v.getLsbD 2
    errcode := if v.getLsbD 2 then none else s.errcode
    overrun := s.overrun && !v.getLsbD 3 }

/-- A host write to IE (10_state.md R60). -/
def writeIE (v : Word32) (s : State) : State := { s with doneIE := v.getLsbD 0, errIE := v.getLsbD 1 }

/-- The flags at the accept of a command (44_control.md R251). -/
def acceptFlags (s : State) : State := { s with done := false, err := false, errcode := none }

/-- The error flags of an aborting completion (44_control.md R253, 60_exceptions.md R279). -/
def errorFlags (e : CmdError) (s : State) : State :=
  { s with err := true, errcode := some e, fatal := s.fatal || e == .internalFault }

end Sys2Proof.Machine
end

