-- ==== Sys2Proof/Machine/Ops.lean ====
section
/-! DEFINITION. The named operations over the stores, the field registers and the command life cycle: accept, complete,
the ONE error entry (60_exceptions.md R276, R280), the draw and its answer, the soft reset. There is no return from an
error: the host acknowledges it by writing STATUS (60_exceptions.md R282, Flags.lean writeStatus). -/

namespace Sys2Proof.Machine

/-! ### The stores -/

/-- Entry a of a store; an unlisted entry holds 0 (10_state.md R76). -/
def Memory.read : Memory → Nat → Word256
  | [], _ => 0
  | (k, w) :: rest, a => if a = k then w else Memory.read rest a

/-- A store with entry a at v, in the canonical form: writing 0 unlists the entry. -/
def Memory.write : Memory → Nat → Word256 → Memory
  | [], a, v => if v = 0 then [] else [(a, v)]
  | (k, w) :: rest, a, v =>
    if a < k then (if v = 0 then (k, w) :: rest else (a, v) :: (k, w) :: rest)
    else if a = k then (if v = 0 then rest else (a, v) :: rest)
    else (k, w) :: Memory.write rest a v

/-- A store with entries 0 to n-1 at g 0, ..., g (n-1). -/
def Memory.fill (m : Memory) (g : Nat → Word256) : Nat → Memory
  | 0     => m
  | n + 1 => Memory.write (Memory.fill m g n) n (g n)

/-- The canonical form: entry numbers strictly rising, no entry listed that holds 0. -/
def Memory.wf : Memory → Bool
  | [] => true
  | (k, w) :: rest => w != 0 && rest.all (fun p => decide (k < p.1)) && Memory.wf rest

/-- Every listed entry exists: its number is below MAX_SHARES (10_state.md R35, R37, R38). -/
def Memory.within (bound : Nat) (m : Memory) : Bool := m.all (fun p => decide (p.1 < bound))

/-! ### Words of a 256-bit value -/

/-- Word k of a 256-bit value: bits 32k+31 to 32k (20_memory.md R92). -/
def wordOf (v : Word256) (k : Fin 8) : Word32 := v.extractLsb' (32 * k.val) 32

/-- A 256-bit value with exactly the 32 bits of word k replaced (10_state.md R71). -/
def setWord (v : Word256) (k : Fin 8) (w : Word32) : Word256 :=
  (v &&& ~~~((0xFFFFFFFF : Word256) <<< (32 * k.val))) ||| (w.setWidth 256 <<< (32 * k.val))

/-! ### Field registers -/

/-- `F[r]` (00_scope.md R14). -/
def readField (r : RegIdx) (s : State) : Word256 := s.f[r]

/-- `F[r] <- v` for a raw pattern (00_scope.md R14). -/
def writeRaw (r : RegIdx) (v : Word256) (s : State) : State := { s with f := s.f.set r.val v }

/-- `F[r] <- v` for a result of the block, a canonical integer (00_scope.md R14, R16). -/
def writeField (r : RegIdx) (v : Nat) (s : State) : State := writeRaw r (BitVec.ofNat 256 v) s

/-! ### The command life cycle -/

/-- The accept of command w (44_control.md R251): the word is latched, the flags cleared, the core busy at the start of
the command with no draw made. -/
def acceptCommand (w : Word32) (s : State) : State :=
  { acceptFlags s with cur := w, phase := .exec, stage := .start, loopIdx := 0, ndraws := 0, reply := none }

/-- The part of the completion that every command has (44_control.md R253): A and BUF zeroed, the draws counted, DONE
set, the core idle. The command's local variables end with it (log entry 11). -/
def complete (s : State) : State :=
  { s with
    coeffA       := []
    batchBuf     := []
    entropyCount := s.entropyCount + BitVec.ofNat 32 s.ndraws
    done         := true
    phase        := .idle
    stage        := .start
    loopIdx      := 0
    ndraws       := 0
    reply        := none }

/-- The state an aborting completion leaves (44_control.md R253; 60_exceptions.md R276, R280). -/
def abortState (e : CmdError) (s : State) : State := complete (errorFlags e s)

/-- TAKING AN ERROR, the block's only exception entry: `raise CmdError(code)` ends the command at once (60_exceptions.md
R276, R280). INTERNAL_FAULT ends the run in a fault (R279; log entry 7). -/
def takeError (e : CmdError) (s : State) : Host.Outcome State Fault Refusal :=
  if e = .internalFault then .fault (.internalFault (abortState e s)) else .next (abortState e s)

/-! ### Draws -/

/-- The core issues a draw (41_sampling.md R191): a new request, numbered. -/
def requestDraw (s : State) : State := { s with ereq := .pending, drawId := s.drawId + 1, reply := none }

/-- The answer reaches the waiting command (41_sampling.md R191). -/
def deliver (r : Reply) (s : State) : State := { s with ereq := .none, reply := some r }

/-- An answer to d is one to the newest draw: it names that draw, or whichever is pending (log entry 4). -/
def answersNewest (d : Option Nat) (s : State) : Bool := d == none || d == some s.drawId

/-- The entropy source answers draw d (41_sampling.md R191). Only the answer to the pending draw is taken; one to a
draw abandoned by a reset is discarded (70_reset_and_hazards.md R302; log entry 4). -/
def answerDraw (d : Option Nat) (r : Reply) (s : State) : State :=
  if s.ereq = .pending ∧ answersNewest d s = true then deliver r s else s

/-- The running command uses a successful answer: it counts in ndraws (41_sampling.md R191). -/
def useReply (s : State) : State := { s with reply := none, ndraws := s.ndraws + 1 }

/-! ### Reset -/

/-- SOFT_RESET: the block in its reset state (70_reset_and_hazards.md R301). The parameters keep their values (R301);
the host's last read value, the draw numbering and the turns still to come are not the block's (log entry 13). -/
def softReset (s : State) : State :=
  { State.reset with
    params    := s.params
    drawId    := s.drawId
    hostData  := s.hostData
    schedule  := s.schedule
    cycle     := s.cycle
    freeTurns := s.freeTurns }

end Sys2Proof.Machine
end

