-- ==== Sys2Proof/Machine/Operands.lean ====
section
/-! DEFINITION. The operand forms of 30_encoding.md R125: a field register checked canonical, and the share window of
RECONSTRUCT; and the shape shared by the arithmetic commands (40_field_arithmetic.md R150). -/

namespace Sys2Proof.Machine

/-- A source field register, read and checked canonical (40_field_arithmetic.md R150, 60_exceptions.md R272). -/
def fieldOperand (r : RegIdx) (s : State) : Except CmdError Nat :=
  if canon (readField r s).toNat then .ok (readField r s).toNat else .error .malformedInput

/-- A command with one source: read, check, compute, write on success (40_field_arithmetic.md R150). -/
def unaryOp (op : Nat → Except CmdError Nat) (rd ra : RegIdx) (s : State) : Host.Outcome State Fault Refusal :=
  match fieldOperand ra s with
  | .error e => takeError e s
  | .ok a =>
    match op a with
    | .error e => takeError e s
    | .ok v    => .next (complete (writeField rd v s))

/-- A command with two sources, checked in the order ra, rb (40_field_arithmetic.md R150). -/
def binaryOp (op : Nat → Nat → Except CmdError Nat) (rd ra rb : RegIdx) (s : State) :
    Host.Outcome State Fault Refusal :=
  match fieldOperand ra s with
  | .error e => takeError e s
  | .ok a =>
    match fieldOperand rb s with
    | .error e => takeError e s
    | .ok b =>
      match op a b with
      | .error e => takeError e s
      | .ok v    => .next (complete (writeField rd v s))

/-- The x-coordinate of share j (43_reconstruction.md R230). -/
def shareX (s : State) (j : Nat) : Nat := (Memory.read s.sx j).toNat

/-- The y-coordinate of share j (43_reconstruction.md R230). -/
def shareY (s : State) (j : Nat) : Nat := (Memory.read s.sy j).toNat

/-- Every coordinate of shares base to base+k-1 is canonical (43_reconstruction.md R231). -/
def windowCanon (s : State) (base : Nat) : Nat → Bool
  | 0     => true
  | k + 1 => windowCanon s base k && (canon (shareX s (base + k)) && canon (shareY s (base + k)))

end Sys2Proof.Machine
end

