-- ==== Sys2Proof/Machine/Arith.lean ====
section
/-! DEFINITION. The meanings of ADD, SUB, MUL, INV and DIV (40_field_arithmetic.md R158 to R162), each one core step from
accept to completion. -/

namespace Sys2Proof.Machine

/-- ADD (40_field_arithmetic.md R158). -/
def execAdd (rd ra rb : RegIdx) (s : State) : Host.Outcome State Fault Refusal :=
  binaryOp (fun a b => .ok (fadd a b)) rd ra rb s

/-- SUB (40_field_arithmetic.md R159). -/
def execSub (rd ra rb : RegIdx) (s : State) : Host.Outcome State Fault Refusal :=
  binaryOp (fun a b => .ok (fsub a b)) rd ra rb s

/-- MUL (40_field_arithmetic.md R160). -/
def execMul (rd ra rb : RegIdx) (s : State) : Host.Outcome State Fault Refusal :=
  binaryOp (fun a b => .ok (fmul a b)) rd ra rb s

/-- INV (40_field_arithmetic.md R161). -/
def execInv (rd ra : RegIdx) (s : State) : Host.Outcome State Fault Refusal :=
  unaryOp (finvChecked s.params.invAlgo) rd ra s

/-- DIV (40_field_arithmetic.md R162). -/
def execDiv (rd ra rb : RegIdx) (s : State) : Host.Outcome State Fault Refusal :=
  binaryOp (fdiv s.params.invAlgo) rd ra rb s

end Sys2Proof.Machine
end

