-- ==== Sys2Proof/Machine/Control.lean ====
section
/-! DEFINITION. The meaning of NOP (44_control.md R254) and of an illegal command word (60_exceptions.md R275). -/

namespace Sys2Proof.Machine

/-- NOP: nothing, then the completion (44_control.md R254). -/
def execNop (s : State) : Host.Outcome State Fault Refusal := .next (complete s)

/-- A word of no row of the opcode map: no operand read, no draw made (30_encoding.md R127, 60_exceptions.md R275). -/
def execIllegal (s : State) : Host.Outcome State Fault Refusal := takeError .illegalCommand s

end Sys2Proof.Machine
end

