-- ==== Sys2Proof/Machine/Sampling.lean ====
section
/-! DEFINITION. The nonzero sampler (41_sampling.md R194) and the meanings of RAND and RANDNZ (R195, R196). Each call of
a meaning is one core step: up to the next draw, or to the completion (44_control.md R252). While a draw is pending the
step changes nothing: the core waits, without bound (R191, R255). -/

namespace Sys2Proof.Machine

/-- What one core step of NonzeroBatch comes to. -/
inductive BatchStep where
  /-- The draw is not answered yet. -/
  | waiting
  /-- The draw failed. -/
  | failed
  /-- The next draw is issued, of this round or of a new one. -/
  | more (s : State)
  /-- The batch is complete and has no zero element: it stands in BUF. -/
  | accepted (s : State)
  deriving DecidableEq, Repr

/-- `BUF[i] <- sample(EntropyDraw())`, the draw answered with b (41_sampling.md R194). -/
def storeSample (b : Vector Byte 32) (s : State) : State :=
  { useReply s with batchBuf := Memory.write s.batchBuf s.loopIdx (BitVec.ofNat 256 (sample b)) }

/-- The loop index i of NonzeroBatch set (41_sampling.md R194). -/
def setIndex (i : Nat) (s : State) : State := { s with loopIdx := i }

/-- No element of the batch of k is 0 (41_sampling.md R194). -/
def batchNonzero (m : Memory) : Nat → Bool
  | 0     => true
  | k + 1 => batchNonzero m k && Memory.read m k != 0

/-- One core step of NonzeroBatch(k) (41_sampling.md R194): all k draws of a round are made before the zero test, and a
round with a zero element is redrawn whole. -/
def batchStep (k : Nat) (s : State) : BatchStep :=
  match s.reply with
  | none         => .waiting
  | some .fail   => .failed
  | some (.ok b) =>
    if s.loopIdx + 1 < k then .more (requestDraw (setIndex (s.loopIdx + 1) (storeSample b s)))
    else if batchNonzero (storeSample b s).batchBuf k then .accepted (storeSample b s)
    else .more (requestDraw (setIndex 0 (storeSample b s)))

/-- The first draw of a batch or of RAND, entering stage st. -/
def startDraw (st : Stage) (s : State) : State := requestDraw { s with stage := st, loopIdx := 0 }

/-- RAND (41_sampling.md R195). A stage of another command, which no run reaches, counts as the start (log entry 8). -/
def execRand (rd : RegIdx) (s : State) : Host.Outcome State Fault Refusal :=
  match s.stage with
  | .sampling =>
    match s.reply with
    | none         => .next s
    | some .fail   => takeError .randomnessUnavailable s
    | some (.ok b) => .next (complete (writeField rd (sample b) (useReply s)))
  | .start | .batchOne | .coeffs _ _ _ | .xs _ _ _ => .next (startDraw .sampling s)

/-- RANDNZ: NonzeroBatch(1) (41_sampling.md R196). A stage of another command counts as the start (log entry 8). -/
def execRandnz (rd : RegIdx) (s : State) : Host.Outcome State Fault Refusal :=
  match s.stage with
  | .batchOne =>
    match batchStep 1 s with
    | .waiting    => .next s
    | .failed     => takeError .randomnessUnavailable s
    | .more t     => .next t
    | .accepted t => .next (complete (writeRaw rd (Memory.read t.batchBuf 0) t))
  | .start | .sampling | .coeffs _ _ _ | .xs _ _ _ => .next (startDraw .batchOne s)

end Sys2Proof.Machine
end

