-- ==== Sys2Proof/Machine/Generate.lean ====
section
/-! DEFINITION. The meaning of GENERATE (42_share_generation.md R211 to R219): the checks, the coefficient batch, the P(0)
check, the x-coordinate batch, the shares. One call is one core step (44_control.md R252). -/

namespace Sys2Proof.Machine

/-- The polynomial held in the coefficient store, as integers (42_share_generation.md R210). -/
def polynomial (m : Memory) (i : Nat) : Nat := (Memory.read m i).toNat

/-- `A[1 .. t-1] <- NonzeroBatch(t - 1)`: the batch moves from BUF to A (42_share_generation.md R211). -/
def loadCoeffs (t : Nat) (s : State) : State :=
  { s with
    coeffA := Memory.fill s.coeffA
      (fun i => if i = 0 then Memory.read s.coeffA 0 else Memory.read s.batchBuf (i - 1)) t }

/-- Shares 0 to n-1 committed: SX[j] the j-th element of the x batch, SY[j] = PolyEval(A, t, SX[j])
(42_share_generation.md R211, R213). -/
def storeShares (t n : Nat) (s : State) : State :=
  { s with
    sx := Memory.fill s.sx (fun j => Memory.read s.batchBuf j) n
    sy := Memory.fill s.sy
      (fun j => BitVec.ofNat 256 (polyEval (polynomial s.coeffA) t (Memory.read s.batchBuf j).toNat)) n }

/-- What a GENERATE aborted after its checks leaves in the share memory: entries 0 to n-1 at 0
(42_share_generation.md R218). -/
def wipeShares (n : Nat) (s : State) : State :=
  { s with sx := Memory.fill s.sx (fun _ => 0) n, sy := Memory.fill s.sy (fun _ => 0) n }

/-- `A[0] <- s` (42_share_generation.md R211). -/
def loadSecret (secret : Word256) (s : State) : State := { s with coeffA := Memory.write s.coeffA 0 secret }

/-- The checks, in the order of 60_exceptions.md R278, then A[0] and the first coefficient draw
(42_share_generation.md R211, R212). -/
def generateStart (ra : RegIdx) (s : State) : Host.Outcome State Fault Refusal :=
  if s.genT.toNat ≤ 1 ∨ s.genN.toNat < s.genT.toNat then takeError .invalidArgument s
  else if s.params.maxShares < s.genN.toNat then takeError .capacity s
  else match fieldOperand ra s with
  | .error e => takeError e s
  | .ok _ =>
    .next (startDraw (.coeffs s.genT.toNat s.genN.toNat (readField ra s)) (loadSecret (readField ra s) s))

/-- One core step of the coefficient batch; when it is accepted, the P(0) check and the first x draw
(42_share_generation.md R211, R214, R216). -/
def generateCoeffs (t n : Nat) (secret : Word256) (s : State) : Host.Outcome State Fault Refusal :=
  match batchStep (t - 1) s with
  | .waiting    => .next s
  | .failed     => takeError .randomnessUnavailable (wipeShares n s)
  | .more u     => .next u
  | .accepted u =>
    if polyEval (polynomial (loadCoeffs t u).coeffA) t 0 = secret.toNat then
      .next (startDraw (.xs t n secret) (loadCoeffs t u))
    else takeError .internalFault (wipeShares n (loadCoeffs t u))

/-- One core step of the x-coordinate batch; when it is accepted, the shares and the completion
(42_share_generation.md R211, R213). -/
def generateXs (t n : Nat) (s : State) : Host.Outcome State Fault Refusal :=
  match batchStep n s with
  | .waiting    => .next s
  | .failed     => takeError .randomnessUnavailable (wipeShares n s)
  | .more u     => .next u
  | .accepted u => .next (complete (storeShares t n u))

/-- GENERATE (42_share_generation.md R211). A stage of another command counts as the start (log entry 8). -/
def execGenerate (ra : RegIdx) (s : State) : Host.Outcome State Fault Refusal :=
  match s.stage with
  | .coeffs t n secret              => generateCoeffs t n secret s
  | .xs t n _                       => generateXs t n s
  | .start | .sampling | .batchOne  => generateStart ra s

end Sys2Proof.Machine
end

