-- ==== Sys2Proof/Machine/Reconstruct.lean ====
section
/-! DEFINITION. The meaning of RECONSTRUCT (43_reconstruction.md R231 to R238), one core step from accept to completion. -/

namespace Sys2Proof.Machine

/-- RECONSTRUCT: the window check on unbounded integers, the whole window canonical, then the interpolation
(43_reconstruction.md R231; order 60_exceptions.md R278). -/
def execReconstruct (rd : RegIdx) (s : State) : Host.Outcome State Fault Refusal :=
  if s.params.maxShares < s.recBase.toNat + s.recCount.toNat then takeError .capacity s
  else if windowCanon s s.recBase.toNat s.recCount.toNat = false then takeError .malformedInput s
  else
    match lagrange0 s.params.invAlgo (fun j => shareX s (s.recBase.toNat + j))
        (fun j => shareY s (s.recBase.toNat + j)) s.recCount.toNat with
    | .error e => takeError e s
    | .ok v    => .next (complete (writeField rd v s))

end Sys2Proof.Machine
end

