-- ==== Sys2Proof/Machine/Dispatch.lean ====
section
/-! DEFINITION. One core step of each command, one arm per constructor of Instr (44_control.md R252). -/

namespace Sys2Proof.Machine

def exec (i : Instr) (s : State) : Host.Outcome State Fault Refusal :=
  match i with
  | .nop => Sys2Proof.Machine.execNop s
  | .add rd ra rb => Sys2Proof.Machine.execAdd rd ra rb s
  | .sub rd ra rb => Sys2Proof.Machine.execSub rd ra rb s
  | .mul rd ra rb => Sys2Proof.Machine.execMul rd ra rb s
  | .inv rd ra => Sys2Proof.Machine.execInv rd ra s
  | .div rd ra rb => Sys2Proof.Machine.execDiv rd ra rb s
  | .rand rd => Sys2Proof.Machine.execRand rd s
  | .randnz rd => Sys2Proof.Machine.execRandnz rd s
  | .generate ra => Sys2Proof.Machine.execGenerate ra s
  | .reconstruct rd => Sys2Proof.Machine.execReconstruct rd s

end Sys2Proof.Machine
end

