-- ==== Sys2Proof/Machine/Window.lean ====
section
/-! DEFINITION. The host's register window: what each offset is, and what a read and a write of it do (10_state.md R50
to R73; 20_memory.md R91, R95, R96; 44_control.md R251). -/

namespace Sys2Proof.Machine

/-- What stands at an offset of the window (10_state.md R50). -/
inductive Loc where
  | id | caps | ctrl | status | errcode | ie | cmd | genT | genN | recBase | recCount | sidx | entropyCount
  | freg (r : RegIdx) (k : Fin 8)
  | sx (k : Fin 8)
  | sy (k : Fin 8)
  | reserved
  deriving DecidableEq, Repr

/-- The map of 10_state.md R50 over word numbers; word w stands at byte offset 4w. -/
def locOfWord (w : Nat) : Loc :=
  if w < 0x40 then
    match w with
    | 0  => .id
    | 1  => .caps
    | 2  => .ctrl
    | 3  => .status
    | 4  => .errcode
    | 5  => .ie
    | 6  => .cmd
    | 7  => .genT
    | 8  => .genN
    | 9  => .recBase
    | 10 => .recCount
    | 11 => .sidx
    | 12 => .entropyCount
    | _  => .reserved
  else if w < 0xC0 then .freg (Fin.ofNat 16 ((w - 0x40) / 8)) (Fin.ofNat 8 (w - 0x40))
  else if w < 0xC8 then .sx (Fin.ofNat 8 (w - 0xC0))
  else if w < 0xD0 then .sy (Fin.ofNat 8 (w - 0xC8))
  else .reserved

/-- The location an access to a byte address reaches: address bits 1:0 are ignored (20_memory.md R91). -/
def locOf (addr : Addr) : Loc := locOfWord (addr.toNat / 4)

/-- A data window, whose reads and writes are blocked while the block is busy (10_state.md R57). -/
def Loc.isWindow : Loc → Bool
  | .freg _ _ | .sx _ | .sy _ => true
  | .id | .caps | .ctrl | .status | .errcode | .ie | .cmd | .genT | .genN | .recBase | .recCount | .sidx
  | .entropyCount | .reserved => false

/-- SIDX names an entry that exists (10_state.md R72). -/
def sidxInRange (s : State) : Bool := decide (s.sidx.toNat < s.params.maxShares)

/-- The value at a location of a block that does not block the read (10_state.md R50 to R73). -/
def locValue (l : Loc) (s : State) : Word32 :=
  match l with
  | .id           => idWord
  | .caps         => capsWord s.params
  | .ctrl         => 0
  | .status       => statusWord s
  | .errcode      => errcodeWord s
  | .ie           => ieWord s
  | .cmd          => s.cur
  | .genT         => s.genT
  | .genN         => s.genN
  | .recBase      => s.recBase
  | .recCount     => s.recCount
  | .sidx         => s.sidx
  | .entropyCount => s.entropyCount
  | .freg r k     => wordOf (readField r s) k
  | .sx k         => if sidxInRange s then wordOf (Memory.read s.sx s.sidx.toNat) k else 0
  | .sy k         => if sidxInRange s then wordOf (Memory.read s.sy s.sidx.toNat) k else 0
  | .reserved     => 0

/-- The value a read returns goes to the host (00_scope.md R14). -/
def toHost (v : Word32) (s : State) : State := { s with hostData := v }

/-- `HostRead(addr)`: the value goes to the host; a blocked window read returns 0 and sets OVERRUN (10_state.md R57,
20_memory.md R95). -/
def hostRead (addr : Addr) (s : State) : State :=
  if s.busy && (locOf addr).isWindow then toHost 0 (setOverrun s)
  else toHost (locValue (locOf addr) s) s

/-- A write the block drops with OVERRUN while it is busy (10_state.md R57). -/
def unlessBusy (s t : State) : State := if s.busy then setOverrun s else t

/-- A write to CMD: accept, or OVERRUN (10_state.md R64, 44_control.md R251). -/
def writeCmd (w : Word32) (s : State) : State :=
  if s.busy || s.fatal then setOverrun s else acceptCommand w s

/-- Word k of SX[SIDX] written (10_state.md R72). -/
def writeSX (k : Fin 8) (v : Word32) (s : State) : State :=
  if sidxInRange s then
    { s with sx := Memory.write s.sx s.sidx.toNat (setWord (Memory.read s.sx s.sidx.toNat) k v) }
  else s

/-- Word k of SY[SIDX] written (10_state.md R73). -/
def writeSY (k : Fin 8) (v : Word32) (s : State) : State :=
  if sidxInRange s then
    { s with sy := Memory.write s.sy s.sidx.toNat (setWord (Memory.read s.sy s.sidx.toNat) k v) }
  else s

/-- A host write of v at a location (10_state.md R51 to R73, 20_memory.md R96). -/
def writeLoc (l : Loc) (v : Word32) (s : State) : State :=
  match l with
  | .ctrl       => if v.getLsbD 0 then softReset s else s
  | .status     => writeStatus v s
  | .ie         => writeIE v s
  | .cmd        => writeCmd v s
  | .genT       => unlessBusy s { s with genT := v }
  | .genN       => unlessBusy s { s with genN := v }
  | .recBase    => unlessBusy s { s with recBase := v }
  | .recCount   => unlessBusy s { s with recCount := v }
  | .sidx       => unlessBusy s { s with sidx := v }
  | .freg r k   => unlessBusy s (writeRaw r (setWord (readField r s) k v) s)
  | .sx k       => unlessBusy s (writeSX k v s)
  | .sy k       => unlessBusy s (writeSY k v s)
  | .id | .caps | .errcode | .entropyCount | .reserved => s

/-- One host access, done whole (20_memory.md R97). -/
def hostAccess (a : Access) (s : State) : State :=
  match a with
  | .read addr    => hostRead addr s
  | .write addr v => writeLoc (locOf addr) v s

end Sys2Proof.Machine
end

