-- ==== Sys2Proof/Machine/Sequencer.lean ====
section
/-! DEFINITION. The turns of the three agents (00_scope.md R19): the core's turn, which decodes the latched command word
and runs one core step of it, and the order in which the turns come, which never ends (44_control.md R255). -/

namespace Sys2Proof.Machine

/-- The core's turn: nothing while idle; else `decode(cur)` and one step of the command, or the ILLEGAL_COMMAND abort
(44_control.md R252, 30_encoding.md R127). -/
def coreTurn (s : State) : Host.Outcome State Fault Refusal :=
  match s.phase with
  | .idle => .next s
  | .exec =>
    match decode s.cur with
    | some i => exec i s
    | none   => execIllegal s

/-- One turn of one agent (00_scope.md R19). -/
def takeTurn (t : Turn) (s : State) : Host.Outcome State Fault Refusal :=
  match t with
  | .host a      => .next (hostAccess a s)
  | .core        => coreTurn s
  | .entropy d r => .next (answerDraw d r s)

/-- The turns still to come, replaced (log entry 1). -/
def setSchedule (rest : List Turn) (s : State) : State := { s with schedule := rest }

/-- The turn that is next: the first of the schedule; once that is used up, the first of the cycle; where neither list
has one, a free value (log entries 1 and 18). -/
def upcoming (s : State) : Turn :=
  match s.schedule, s.cycle with
  | t :: _, _ => t
  | [], t :: _ => t
  | [], []     => Config.freeTurn s.freeTurns

/-- s with the turn that is next taken off: a used up schedule starts the cycle anew, and the cycle itself stays, so that
the turns never end (44_control.md R255; log entry 1). -/
def advance (s : State) : State :=
  match s.schedule, s.cycle with
  | _ :: rest, _ => setSchedule rest s
  | [], _ :: rest => setSchedule rest s
  | [], []        => { s with freeTurns := s.freeTurns + 1 }

/-- One step of the machine: the turn that is next, taken (20_memory.md R101). -/
def nextTurn (s : State) : Host.Outcome State Fault Refusal := takeTurn (upcoming s) (advance s)

/-- A state in which the very next turn is the core's, at the start of command w: the accept of w (44_control.md R251),
then a core turn (log entry 12). -/
def placeCommand (w : Word32) (s : State) : State := setSchedule (.core :: s.schedule) (acceptCommand w s)

end Sys2Proof.Machine
end

