-- ==== Sys2Proof/Machine/Step.lean ====
section
/-! DEFINITION. One step of the machine: the next turn of the total order of 20_memory.md R101. -/

namespace Sys2Proof.Machine

/-- One step: the turn that is next. -/
def step (s : State) : Host.Outcome State Fault Refusal := nextTurn s

/-- s with the command of table bits w accepted and the core's turn next: the block fetches no instructions
(10_state.md R31), the host's accepted write to CMD is what brings one (log entry 12). -/
def State.withFetchWord (s : State) (nbits w : Nat) : State := placeCommand (BitVec.ofNat 32 (w % 2 ^ nbits)) s

end Sys2Proof.Machine
end

