-- ==== Sys2Proof/Safety.lean ====
section
/-! DEFINITION. What the states of a run have in common, and what a safe run is: the invariant MachineInv, clause by clause,
and the absence of INTERNAL_FAULT. A run is a sequence of steps from State.reset, with any turns to come. -/

namespace Sys2Proof.Machine

/-- A store is in its canonical form and lists only entries that exist (10_state.md R35, R37, R38). -/
def storeOk (p : Params) (m : Memory) : Bool := Memory.wf m && Memory.within p.maxShares m

/-- The four stores are as they should be. -/
structure StoresOk (s : State) : Prop where
  sx       : storeOk s.params s.sx = true
  sy       : storeOk s.params s.sy = true
  coeffA   : storeOk s.params s.coeffA = true
  batchBuf : storeOk s.params s.batchBuf = true

/-- Between commands nothing of a command is left: A and BUF zero, no progress, no request (10_state.md R37 to R40). -/
def IdleClean (s : State) : Prop :=
  s.phase = .idle → s.coeffA = [] ∧ s.batchBuf = [] ∧ s.stage = .start ∧ s.loopIdx = 0 ∧ s.ndraws = 0 ∧
    s.reply = none ∧ s.ereq = .none

/-- ERR stands exactly with a nonzero ERRCODE (10_state.md R56, R59), a busy block shows neither DONE nor ERR (R55, R56),
and INTERNAL_FAULT is never reported (60_exceptions.md R279). -/
structure FlagsOk (s : State) : Prop where
  errcode    : s.errcode.isSome = s.err
  busyClear  : s.phase = .exec → s.done = false ∧ s.err = false
  neverFatal : s.fatal = false
  neverFault : s.errcode ≠ some .internalFault

/-- A draw is pending exactly while a started command has no answer to go on with (10_state.md R40, 41_sampling.md R191). -/
structure RequestOk (s : State) : Prop where
  pending : s.ereq = .pending ↔ (s.stage ≠ .start ∧ s.reply = none)
  reply   : s.reply ≠ none → s.stage ≠ .start

/-- A GENERATE past its checks: its locals are the registers' values, the checks hold, A[0] is the secret
(42_share_generation.md R211, R212). -/
structure Generating (t n : Nat) (secret : Word256) (s : State) : Prop where
  command : ∃ ra, decode s.cur = some (.generate ra) ∧ readField ra s = secret
  tReg    : t = s.genT.toNat
  nReg    : n = s.genN.toNat
  tLow    : 1 < t
  tHigh   : t ≤ n
  nHigh   : n ≤ s.params.maxShares
  canon   : canon secret.toNat = true
  constantTerm : Memory.read s.coeffA 0 = secret

/-- The progress of the running command fits its word (10_state.md R39). -/
def StageOk (s : State) : Prop :=
  match s.stage with
  | .start => s.coeffA = [] ∧ s.batchBuf = [] ∧ s.ndraws = 0
  | .sampling => (∃ rd, decode s.cur = some (.rand rd)) ∧ s.coeffA = [] ∧ s.batchBuf = []
  | .batchOne => (∃ rd, decode s.cur = some (.randnz rd)) ∧ s.coeffA = [] ∧ s.loopIdx = 0
  | .coeffs t n secret => Generating t n secret s ∧ s.loopIdx < t - 1
  | .xs t n secret => Generating t n secret s ∧ s.loopIdx < n ∧
      ∀ i, 1 ≤ i → i < t → Memory.read s.coeffA i ≠ 0 ∧ canon (Memory.read s.coeffA i).toNat = true

/-- The invariant of the machine: what every step keeps and State.reset meets. -/
structure MachineInv (s : State) : Prop where
  params   : s.params.legal
  stores   : StoresOk s
  idle     : IdleClean s
  flags    : FlagsOk s
  request  : RequestOk s
  progress : StageOk s
  batch    : ∀ i, canon (Memory.read s.batchBuf i).toNat = true

/-- What a completion without error leaves of s when it commits f, sx and sy and the command made `draws` successful
draws (44_control.md R253): A and BUF zeroed, the draws counted, DONE set, the core idle and without progress; every
other field as it was. That the command's own variables end with it is log entry 11. -/
def completed (f : Vector Word256 16) (sx sy : Memory) (draws : Nat) (s : State) : State :=
  { s with
    f := f, sx := sx, sy := sy, coeffA := [], batchBuf := [], phase := .idle, stage := .start, loopIdx := 0,
    ndraws := 0, reply := none, done := true, entropyCount := s.entropyCount + BitVec.ofNat 32 draws }

/-- What an aborting completion leaves of s (44_control.md R253, 60_exceptions.md R276): no field register written, the
share memory as given, ERR and the code set besides. -/
def aborted (e : CmdError) (sx sy : Memory) (draws : Nat) (s : State) : State :=
  { completed s.f sx sy draws s with err := true, errcode := some e }

/-- What issuing the next draw leaves of s: stage st, index i, `draws` draws made so far, A and BUF as given, the request
pending under the next number (41_sampling.md R191, R194; log entry 4). -/
def drawing (st : Stage) (i draws : Nat) (coeffA batchBuf : Memory) (s : State) : State :=
  { s with
    coeffA := coeffA, batchBuf := batchBuf, stage := st, loopIdx := i, ndraws := draws, reply := none,
    ereq := .pending, drawId := s.drawId + 1 }

/-- The destination register of a command (10_state.md R34). -/
def destination : Instr → Option RegIdx
  | .add rd _ _ | .sub rd _ _ | .mul rd _ _ | .div rd _ _ | .inv rd _ | .rand rd | .randnz rd | .reconstruct rd => some rd
  | .nop | .generate _ => none

/-- Command i runs NonzeroBatch(k) at stage st (41_sampling.md R194, R196; 42_share_generation.md R211). -/
inductive RunsBatch : Instr → Stage → Nat → Prop where
  | randnz (rd : RegIdx) : RunsBatch (.randnz rd) .batchOne 1
  | coeffs (ra : RegIdx) (t n : Nat) (secret : Word256) : RunsBatch (.generate ra) (.coeffs t n secret) (t - 1)
  | xs (ra : RegIdx) (t n : Nat) (secret : Word256) : RunsBatch (.generate ra) (.xs t n secret) n

/-- Command i has a draw outstanding or answered at stage st. -/
inductive Draws : Instr → Stage → Prop where
  | rand (rd : RegIdx) : Draws (.rand rd) .sampling
  | batch {i : Instr} {st : Stage} {k : Nat} : RunsBatch i st k → Draws i st

/-- Entries 0 to n-1 of m' are 0, the others as in m (42_share_generation.md R218). -/
def Zeroed (n : Nat) (m m' : Memory) : Prop :=
  ∀ j, Memory.read m' j = if j < n then 0 else Memory.read m j

/-- Two states that agree on everything but the hidden stores A and BUF (10_state.md R37, R38). -/
def SameButHidden (s t : State) : Prop := { s with coeffA := t.coeffA, batchBuf := t.batchBuf } = t

/-- The next turn is a host write that resets the block (10_state.md R61). -/
def ResetsNext (s : State) : Prop :=
  ∃ a v, upcoming s = .host (.write a v) ∧ a &&& 0xFFC = 0x008 ∧ v.getLsbD 0 = true

/-- The running command waits for an answer to its draw (41_sampling.md R191). -/
def AwaitsAnswer (s : State) : Prop :=
  s.phase = .exec ∧ (∃ i, decode s.cur = some i ∧ Draws i s.stage) ∧ s.ereq = .pending ∧ s.reply = none

/-- The first n steps of the run from s. -/
def run : Nat → State → Host.Outcome State Fault Refusal
  | 0, s     => .next s
  | n + 1, s =>
    match step s with
    | .next t    => run n t
    | .fault f   => .fault f
    | .refused r => .refused r

end Sys2Proof.Machine
end

