-- ==== Sys2Proof/Certificates/Slice0/Obligations.lean ====
section
/-! DEFINITION. The statements for the provers, each a formalisation of rules of spec/ named in its docstring. The
witnesses of their hypotheses stand in Sys2Proof/Tests/Slice0.lean. -/

open Sys2Proof Sys2Proof.Machine

/-! ### Fetch and decode -/

/-- 44_control.md R252: where the next turn is a busy core's, it runs one core step of the command its latched word decodes
to, the turn taken off; the turns come from the schedule, then from the cycle for ever (log entry 1). Which turn comes
where neither list has one is a free value (log entry 18), of which the statement says nothing. -/
def Obligations.StepRunsLatchedCommand : Prop :=
  ∀ (s : State) (i : Instr), s.phase = .exec → decode s.cur = some i →
    (upcoming s = .core → step s = exec i (advance s)) ∧
    (∀ rest, s.schedule = .core :: rest → step s = exec i (setSchedule rest s)) ∧
    (∀ rest, s.schedule = [] → s.cycle = .core :: rest → step s = exec i (setSchedule rest s))

/-- 60_exceptions.md R275: the core's turn on a word of no row of the opcode map aborts with ILLEGAL_COMMAND; no operand
matters, no draw is made and no data changes. -/
def Obligations.IllegalWordAborts : Prop :=
  ∀ s : State, s.phase = .exec → inTable s.cur = false → s.ndraws = 0 → upcoming s = .core →
    step s = .next (aborted .illegalCommand s.sx s.sy 0 (advance s))

/-- 30_encoding.md R130: the four words written out there decode to the commands they are written for. -/
def Obligations.SpecWordsDecode : Prop :=
  decode 0x00021302 = some (.sub 3 1 2) ∧ decode 0x00001304 = some (.inv 3 1) ∧
  decode 0x00001020 = some (.generate 1) ∧ decode 0x00000221 = some (.reconstruct 2)

/-- 30_encoding.md R126, R127, R130: the decoder reads every assembled command back, every register at every value. -/
def Obligations.DecodeInvertsEncode : Prop := ∀ i : Instr, decode (encode i) = some i

/-- 30_encoding.md R126 to R128: a word that decodes is the assembled word of what it decodes to; no bit is ignored. -/
def Obligations.EncodeInvertsDecode : Prop := ∀ (w : Word32) (i : Instr), decode w = some i → encode i = w

/-- 30_encoding.md R126, R128: the decoder accepts exactly the words that match a row of the opcode map, and those are
exactly the words to which none of the three conditions of R128 applies. -/
def Obligations.DecodeAcceptsTheTable : Prop :=
  ∀ w : Word32, (decode w).isSome = inTable w ∧ wellFormed w = inTable w

/-! ### NOP and arithmetic -/

/-- 44_control.md R254: NOP completes and does nothing else. -/
def Obligations.NopCompletes : Prop :=
  ∀ s : State, exec .nop s = .next (completed s.f s.sx s.sy s.ndraws s)

/-- 40_field_arithmetic.md R151, R158: ADD of canonical sources writes (a + b) mod PRIME to F[rd] and completes. -/
def Obligations.AddResult : Prop :=
  ∀ (s : State) (rd ra rb : RegIdx) (a b : Nat), a = (readField ra s).toNat → b = (readField rb s).toNat →
    a < PRIME → b < PRIME →
    exec (.add rd ra rb) s =
      .next (completed (s.f.set rd.val (BitVec.ofNat 256 ((a + b) % PRIME))) s.sx s.sy s.ndraws s)

/-- 40_field_arithmetic.md R152, R159: SUB of canonical sources writes the canonical d with (d + b) mod PRIME = a. -/
def Obligations.SubResult : Prop :=
  ∀ (s : State) (rd ra rb : RegIdx) (a b : Nat), a = (readField ra s).toNat → b = (readField rb s).toNat →
    a < PRIME → b < PRIME →
    ∃ d, d < PRIME ∧ (d + b) % PRIME = a ∧ (b ≤ a → d = a - b) ∧ (a < b → d = PRIME - b + a) ∧
      exec (.sub rd ra rb) s = .next (completed (s.f.set rd.val (BitVec.ofNat 256 d)) s.sx s.sy s.ndraws s)

/-- 40_field_arithmetic.md R153, R160: MUL of canonical sources writes (a * b) mod PRIME. -/
def Obligations.MulResult : Prop :=
  ∀ (s : State) (rd ra rb : RegIdx) (a b : Nat), a = (readField ra s).toNat → b = (readField rb s).toNat →
    a < PRIME → b < PRIME →
    exec (.mul rd ra rb) s =
      .next (completed (s.f.set rd.val (BitVec.ofNat 256 (a * b % PRIME))) s.sx s.sy s.ndraws s)

/-- 40_field_arithmetic.md R154, R161: under either INV_ALGO, INV of a canonical nonzero a writes its inverse. -/
def Obligations.InvResult : Prop :=
  ∀ (s : State) (rd ra : RegIdx) (a : Nat), a = (readField ra s).toNat → a < PRIME → a ≠ 0 →
    ∃ b, 1 ≤ b ∧ b < PRIME ∧ a * b % PRIME = 1 ∧
      exec (.inv rd ra) s = .next (completed (s.f.set rd.val (BitVec.ofNat 256 b)) s.sx s.sy s.ndraws s)

/-- 40_field_arithmetic.md R155, R157, R162: under either INV_ALGO, DIV by a canonical nonzero b writes the canonical q
with (q * b) mod PRIME = a. -/
def Obligations.DivResult : Prop :=
  ∀ (s : State) (rd ra rb : RegIdx) (a b : Nat), a = (readField ra s).toNat → b = (readField rb s).toNat →
    a < PRIME → b < PRIME → b ≠ 0 →
    ∃ q, q < PRIME ∧ q * b % PRIME = a ∧
      exec (.div rd ra rb) s = .next (completed (s.f.set rd.val (BitVec.ofNat 256 q)) s.sx s.sy s.ndraws s)

/-- 60_exceptions.md R272: a command that reads a value not below PRIME aborts with MALFORMED_INPUT: the two sources of
ADD, SUB, MUL, DIV, the source of INV, the secret of GENERATE (after its checks on t and n), any coordinate in the window
of RECONSTRUCT, whatever the rest of the window holds. -/
def Obligations.MalformedInputAborts : Prop :=
  ∀ (s : State) (rd ra rb : RegIdx),
    (PRIME ≤ (readField ra s).toNat ∨ PRIME ≤ (readField rb s).toNat →
      ∀ i ∈ [Instr.add rd ra rb, .sub rd ra rb, .mul rd ra rb, .div rd ra rb],
        exec i s = .next (aborted .malformedInput s.sx s.sy s.ndraws s)) ∧
    (PRIME ≤ (readField ra s).toNat →
      exec (.inv rd ra) s = .next (aborted .malformedInput s.sx s.sy s.ndraws s)) ∧
    (PRIME ≤ (readField ra s).toNat → s.stage = .start → 1 < s.genT.toNat → s.genT.toNat ≤ s.genN.toNat →
      s.genN.toNat ≤ s.params.maxShares →
      exec (.generate ra) s = .next (aborted .malformedInput s.sx s.sy s.ndraws s)) ∧
    (s.recBase.toNat + s.recCount.toNat ≤ s.params.maxShares →
      (∃ j < s.recCount.toNat, PRIME ≤ (Memory.read s.sx (s.recBase.toNat + j)).toNat ∨
        PRIME ≤ (Memory.read s.sy (s.recBase.toNat + j)).toNat) →
      exec (.reconstruct rd) s = .next (aborted .malformedInput s.sx s.sy s.ndraws s))

/-- 60_exceptions.md R273: DIVISION_BY_ZERO is raised by INV of 0, by DIV by 0, by RECONSTRUCT on a canonical window with
two shares of the same x, and never by GENERATE. -/
def Obligations.DivisionByZeroAborts : Prop :=
  ∀ (s : State) (rd ra rb : RegIdx),
    (readField ra s = 0 → exec (.inv rd ra) s = .next (aborted .divisionByZero s.sx s.sy s.ndraws s)) ∧
    ((readField ra s).toNat < PRIME → readField rb s = 0 →
      exec (.div rd ra rb) s = .next (aborted .divisionByZero s.sx s.sy s.ndraws s)) ∧
    (s.recBase.toNat + s.recCount.toNat ≤ s.params.maxShares →
      (∀ j < s.recCount.toNat, (Memory.read s.sx (s.recBase.toNat + j)).toNat < PRIME ∧
        (Memory.read s.sy (s.recBase.toNat + j)).toNat < PRIME) →
      (∃ i < s.recCount.toNat, ∃ j < s.recCount.toNat, i ≠ j ∧
        Memory.read s.sx (s.recBase.toNat + i) = Memory.read s.sx (s.recBase.toNat + j)) →
      exec (.reconstruct rd) s = .next (aborted .divisionByZero s.sx s.sy s.ndraws s)) ∧
    (∀ t, exec (.generate ra) s = .next t → s.errcode = none → t.errcode ≠ some .divisionByZero)

/-- 40_field_arithmetic.md R154, R165 (R165 is an inference the spec marks as its own): for every canonical nonzero a both
algorithms return the one inverse of a, so neither raises INTERNAL_FAULT and the choice of INV_ALGO affects no value. -/
def Obligations.InverseEnginesAgree : Prop :=
  ∀ a : Nat, 1 ≤ a → a < PRIME →
    ∃ b, (1 ≤ b ∧ b < PRIME ∧ a * b % PRIME = 1) ∧ finv .extGcd a = .ok b ∧ finv .fermat a = .ok b ∧
      ∀ c, 1 ≤ c → c < PRIME → a * c % PRIME = 1 → c = b

/-- 40_field_arithmetic.md R157 (inferences the spec marks as its own): the field laws of the primitives on canonical
values. -/
def Obligations.FieldLaws : Prop :=
  ∀ (alg : InvAlgo) (a b c : Nat), a < PRIME → b < PRIME → c < PRIME →
    (fadd a b = fadd b a ∧ fmul a b = fmul b a) ∧
    (fadd (fadd a b) c = fadd a (fadd b c) ∧ fmul (fmul a b) c = fmul a (fmul b c)) ∧
    fmul a (fadd b c) = fadd (fmul a b) (fmul a c) ∧
    (fadd a 0 = a ∧ fmul a 1 = a ∧ fmul a 0 = 0) ∧
    (fsub a b = fadd a (fsub 0 b) ∧ fsub a a = 0) ∧
    fadd (fsub a b) b = a ∧
    (a ≠ 0 → ∃ d, finv alg a = .ok d ∧ fmul a d = 1 ∧ finv alg d = .ok a) ∧
    (b ≠ 0 → ∃ q, fdiv alg a b = .ok q ∧ fmul q b = a) ∧
    (b ≠ 0 → fdiv alg 0 b = .ok 0)

/-! ### Sampling -/

/-- 41_sampling.md R191, R195, R196; 44_control.md R252, R255: RAND and RANDNZ first issue a draw (its number is the
model's, log entry 4); while the draw has no answer a core step changes nothing, for these and for GENERATE alike, so
that an unanswered command never ends (log entry 17). -/
def Obligations.DrawIssuedAndAwaited : Prop :=
  (∀ (s : State) (rd : RegIdx), s.stage = .start →
    exec (.rand rd) s = .next (drawing .sampling 0 s.ndraws s.coeffA s.batchBuf s) ∧
    exec (.randnz rd) s = .next (drawing .batchOne 0 s.ndraws s.coeffA s.batchBuf s)) ∧
  (∀ (s : State) (i : Instr), Draws i s.stage → s.reply = none → exec i s = .next s)

/-- 41_sampling.md R192, R193, R195: RAND's answer, read with B[0] most significant, is reduced mod PRIME into F[rd]; the
draw counts; 0 is a legal result. -/
def Obligations.RandCompletes : Prop :=
  ∀ (s : State) (rd : RegIdx) (b : Vector Byte 32), s.stage = .sampling → s.reply = some (.ok b) →
    exec (.rand rd) s =
      .next (completed
        (s.f.set rd.val (BitVec.ofNat 256 ((∑ i : Fin 32, (b[i]).toNat * 256 ^ (31 - i.val)) % PRIME)))
        s.sx s.sy (s.ndraws + 1) s)

/-- 41_sampling.md R194, R196: RANDNZ writes its sample when it is not 0; the draw counts with those before it. -/
def Obligations.RandnzCompletes : Prop :=
  ∀ (s : State) (rd : RegIdx) (b : Vector Byte 32) (v : Nat), s.stage = .batchOne → s.loopIdx = 0 →
    Memory.wf s.batchBuf = true → s.reply = some (.ok b) →
    v = (∑ i : Fin 32, (b[i]).toNat * 256 ^ (31 - i.val)) % PRIME → v ≠ 0 →
    exec (.randnz rd) s =
      .next (completed (s.f.set rd.val (BitVec.ofNat 256 v)) s.sx s.sy (s.ndraws + 1) s)

/-- 41_sampling.md R194, R198: in every batch an answered draw is stored in BUF; before the last index the next draw is
issued whatever the value; at the last index a batch with a zero element is redrawn whole, from index 0. -/
def Obligations.BatchContinuesOrRedraws : Prop :=
  ∀ (s : State) (i : Instr) (k : Nat) (b : Vector Byte 32) (m : Memory), RunsBatch i s.stage k →
    s.reply = some (.ok b) →
    m = Memory.write s.batchBuf s.loopIdx (BitVec.ofNat 256 (sample b)) →
    (s.loopIdx + 1 < k → exec i s = .next (drawing s.stage (s.loopIdx + 1) (s.ndraws + 1) s.coeffA m s)) ∧
    (s.loopIdx + 1 = k → (∃ j < k, Memory.read m j = 0) →
      exec i s = .next (drawing s.stage 0 (s.ndraws + 1) s.coeffA m s))

/-- 60_exceptions.md R274: a FAIL answer aborts RAND, RANDNZ and GENERATE at once with RANDOMNESS_UNAVAILABLE; only the
draws before it count; the block is not locked: the host's next command is accepted. -/
def Obligations.RandomnessUnavailableAborts : Prop :=
  ∀ (s : State) (i : Instr), Draws i s.stage → s.reply = some .fail →
    ∃ sx sy, exec i s = .next (aborted .randomnessUnavailable sx sy s.ndraws s) ∧
      ((∀ ra, i ≠ .generate ra) → sx = s.sx ∧ sy = s.sy) ∧
      (s.fatal = false → ∀ w,
        hostAccess (.write 0x018 w) (aborted .randomnessUnavailable sx sy s.ndraws s) =
          acceptCommand w (aborted .randomnessUnavailable sx sy s.ndraws s))

/-! ### GENERATE -/

/-- 42_share_generation.md R210 (inferences the spec marks as its own): PolyEval is the polynomial's value modulo PRIME,
canonical, and A[0] at 0. -/
def Obligations.PolyEvalIsThePolynomial : Prop :=
  ∀ (a : Nat → Nat) (t x : Nat), 1 ≤ t → (∀ i < t, a i < PRIME) → x < PRIME →
    polyEval a t x = (∑ i ∈ Finset.range t, a i * x ^ i) % PRIME ∧ polyEval a t x < PRIME ∧ polyEval a t 0 = a 0

/-- 42_share_generation.md R211, R212; 60_exceptions.md R278: GENERATE's precondition is checked before any draw, as are
CAPACITY and MALFORMED_INPUT in that order, so these aborts leave ENTROPY_COUNT; when every check passes, A[0] takes the
secret and the first of the t - 1 coefficient draws is issued (R211). That the draw takes the next number is the model's choice, log
entry 4. -/
def Obligations.GenerateChecksBeforeDrawing : Prop :=
  ∀ (s : State) (ra : RegIdx) (t n : Nat), s.stage = .start → s.ndraws = 0 →
    t = s.genT.toNat → n = s.genN.toNat →
    (t ≤ 1 ∨ n < t → exec (.generate ra) s = .next (aborted .invalidArgument s.sx s.sy 0 s)) ∧
    (1 < t → t ≤ n → s.params.maxShares < n → exec (.generate ra) s = .next (aborted .capacity s.sx s.sy 0 s)) ∧
    (1 < t → t ≤ n → n ≤ s.params.maxShares → PRIME ≤ (readField ra s).toNat →
      exec (.generate ra) s = .next (aborted .malformedInput s.sx s.sy 0 s)) ∧
    (1 < t → t ≤ n → n ≤ s.params.maxShares → (readField ra s).toNat < PRIME →
      exec (.generate ra) s = .next (drawing (.coeffs t n (readField ra s)) 0 0
        (Memory.write s.coeffA 0 (readField ra s)) s.batchBuf s))

/-- 42_share_generation.md R211, R214, R216: when the coefficient batch is complete without a zero, its elements become
A[1..t-1] in draw order, the P(0) check passes, and the first draw of the x batch is issued. -/
def Obligations.GenerateLoadsCoefficients : Prop :=
  ∀ (s : State) (ra : RegIdx) (t n : Nat) (secret : Word256) (b : Vector Byte 32) (m : Memory),
    MachineInv s → s.stage = .coeffs t n secret → s.reply = some (.ok b) → s.loopIdx + 1 = t - 1 →
    m = Memory.write s.batchBuf s.loopIdx (BitVec.ofNat 256 (sample b)) → (∀ j < t - 1, Memory.read m j ≠ 0) →
    ∃ a, Memory.wf a = true ∧ Memory.read a 0 = secret ∧
      (∀ i, 1 ≤ i → i < t → Memory.read a i = Memory.read m (i - 1)) ∧
      exec (.generate ra) s = .next (drawing (.xs t n secret) 0 (s.ndraws + 1) a m s)

/-- 42_share_generation.md R213: when the x batch is complete without a zero, GENERATE completes with share j holding the
j-th element of the batch and the polynomial's value there, its constant term the secret; every x is nonzero and
canonical (an inference the spec marks as its own); entries n and above and every field register are kept. -/
def Obligations.GenerateWritesShares : Prop :=
  ∀ (s : State) (ra : RegIdx) (t n : Nat) (secret : Word256) (b : Vector Byte 32) (m : Memory),
    MachineInv s → s.stage = .xs t n secret → s.reply = some (.ok b) → s.loopIdx + 1 = n →
    m = Memory.write s.batchBuf s.loopIdx (BitVec.ofNat 256 (sample b)) → (∀ j < n, Memory.read m j ≠ 0) →
    ∃ sx sy, Memory.wf sx = true ∧ Memory.wf sy = true ∧
      (∀ j < n, Memory.read sx j = Memory.read m j ∧ Memory.read sx j ≠ 0 ∧ (Memory.read sx j).toNat < PRIME ∧
        (Memory.read sy j).toNat =
          (secret.toNat + ∑ i ∈ Finset.Ico 1 t,
            (Memory.read s.coeffA i).toNat * (Memory.read m j).toNat ^ i) % PRIME) ∧
      (∀ j, n ≤ j → Memory.read sx j = Memory.read s.sx j ∧ Memory.read sy j = Memory.read s.sy j) ∧
      exec (.generate ra) s = .next (completed s.f sx sy (s.ndraws + 1) s)

/-- 42_share_generation.md R218, 60_exceptions.md R279: what an aborted GENERATE leaves. INVALID_ARGUMENT, CAPACITY,
MALFORMED_INPUT: the share memory as it was. RANDOMNESS_UNAVAILABLE from either batch, or INTERNAL_FAULT: entries 0 to n-1
are 0 and the others as they were. ENTROPY_COUNT grows by the draws that succeeded; the one whose answer led to
INTERNAL_FAULT is among them. That INTERNAL_FAULT ends in a fault that carries the state its completion leaves, of which
the last clause speaks, is the model's reading (DEDUCED, log entry 7). -/
def Obligations.GenerateAbortLeaves : Prop :=
  ∀ (s : State) (ra : RegIdx),
    (∀ u e, exec (.generate ra) s = .next u → s.errcode = none → u.errcode = some e →
      e = .invalidArgument ∨ e = .capacity ∨ e = .malformedInput →
      u.sx = s.sx ∧ u.sy = s.sy ∧ u.entropyCount = s.entropyCount + BitVec.ofNat 32 s.ndraws) ∧
    (∀ t n secret, s.stage = .coeffs t n secret ∨ s.stage = .xs t n secret →
      Memory.wf s.sx = true → Memory.wf s.sy = true →
      (s.reply = some .fail →
        ∃ sx sy, Zeroed n s.sx sx ∧ Zeroed n s.sy sy ∧
          exec (.generate ra) s = .next (aborted .randomnessUnavailable sx sy s.ndraws s)) ∧
      (∀ left, exec (.generate ra) s = .fault (.internalFault left) →
        Zeroed n s.sx left.sx ∧ Zeroed n s.sy left.sy ∧ left.errcode = some .internalFault ∧
          left.entropyCount = s.entropyCount + BitVec.ofNat 32 (s.ndraws + 1)))

/-! ### RECONSTRUCT -/

/-- 60_exceptions.md R277: CAPACITY is raised by GENERATE with GEN_N above MAX_SHARES once t and n are legal, and by
RECONSTRUCT with REC_BASE + REC_COUNT above MAX_SHARES, the sum taken without wrap-around. -/
def Obligations.CapacityAborts : Prop :=
  ∀ (s : State) (r : RegIdx),
    (s.stage = .start → 1 < s.genT.toNat → s.genT.toNat ≤ s.genN.toNat → s.params.maxShares < s.genN.toNat →
      exec (.generate r) s = .next (aborted .capacity s.sx s.sy s.ndraws s)) ∧
    (s.params.maxShares < s.recBase.toNat + s.recCount.toNat →
      exec (.reconstruct r) s = .next (aborted .capacity s.sx s.sy s.ndraws s))

/-- 43_reconstruction.md R231, R234: on a canonical window with pairwise distinct x-coordinates RECONSTRUCT writes the
value in GF(PRIME) of the sum over j of y_j times the product over i other than j of (0 - x_i) / (x_j - x_i). -/
def Obligations.ReconstructResult : Prop :=
  ∀ (s : State) (rd : RegIdx) (k : Nat) (x y : Nat → Nat), k = s.recCount.toNat →
    (∀ j, x j = (Memory.read s.sx (s.recBase.toNat + j)).toNat) →
    (∀ j, y j = (Memory.read s.sy (s.recBase.toNat + j)).toNat) →
    s.recBase.toNat + k ≤ s.params.maxShares → (∀ j < k, x j < PRIME ∧ y j < PRIME) →
    (∀ i < k, ∀ j < k, i ≠ j → x i ≠ x j) →
    ∃ v, v < PRIME ∧
      ((v : Nat) : ZMod PRIME) = ∑ j ∈ Finset.range k,
        (y j : ZMod PRIME) * ∏ i ∈ (Finset.range k).erase j,
          ((0 - (x i : ZMod PRIME)) * ((x j : ZMod PRIME) - (x i : ZMod PRIME))⁻¹) ∧
      exec (.reconstruct rd) s = .next (completed (s.f.set rd.val (BitVec.ofNat 256 v)) s.sx s.sy s.ndraws s)

/-- 43_reconstruction.md R233 (an inference the spec marks as its own): on a canonical window RECONSTRUCT aborts with
DIVISION_BY_ZERO exactly when two shares have the same x, and succeeds otherwise; equal y-values do not matter. ERRCODE
is 0 before, as the accept leaves it. -/
def Obligations.ReconstructFailsExactlyOnDuplicates : Prop :=
  ∀ (s : State) (rd : RegIdx) (k : Nat), k = s.recCount.toNat → s.errcode = none →
    s.recBase.toNat + k ≤ s.params.maxShares →
    (∀ j < k, (Memory.read s.sx (s.recBase.toNat + j)).toNat < PRIME ∧
      (Memory.read s.sy (s.recBase.toNat + j)).toNat < PRIME) →
    (exec (.reconstruct rd) s = .next (aborted .divisionByZero s.sx s.sy s.ndraws s) ↔
      ∃ i < k, ∃ j < k, i ≠ j ∧
        Memory.read s.sx (s.recBase.toNat + i) = Memory.read s.sx (s.recBase.toNat + j)) ∧
    ((¬ ∃ i < k, ∃ j < k, i ≠ j ∧
        Memory.read s.sx (s.recBase.toNat + i) = Memory.read s.sx (s.recBase.toNat + j)) →
      ∃ v, v < PRIME ∧
        exec (.reconstruct rd) s = .next (completed (s.f.set rd.val (BitVec.ofNat 256 v)) s.sx s.sy s.ndraws s))

/-- 43_reconstruction.md R237: with no share RECONSTRUCT writes 0 (the spec's own choice, 92_eei_decisions.md D24); with
one canonical share it writes its y. -/
def Obligations.ReconstructEmptyAndSingle : Prop :=
  ∀ (s : State) (rd : RegIdx),
    (s.recCount = 0 → s.recBase.toNat ≤ s.params.maxShares →
      exec (.reconstruct rd) s = .next (completed (s.f.set rd.val 0) s.sx s.sy s.ndraws s)) ∧
    (s.recCount = 1 → s.recBase.toNat + 1 ≤ s.params.maxShares →
      (Memory.read s.sx s.recBase.toNat).toNat < PRIME → (Memory.read s.sy s.recBase.toNat).toNat < PRIME →
      exec (.reconstruct rd) s =
        .next (completed (s.f.set rd.val (Memory.read s.sy s.recBase.toNat)) s.sx s.sy s.ndraws s))

/-- 43_reconstruction.md R236 (an inference the spec marks as its own): a share with x = 0 is legal, and on a canonical window without duplicates its y is the
result. -/
def Obligations.ReconstructShareAtZero : Prop :=
  ∀ (s : State) (rd : RegIdx) (k j : Nat), k = s.recCount.toNat →
    s.recBase.toNat + k ≤ s.params.maxShares →
    (∀ i < k, (Memory.read s.sx (s.recBase.toNat + i)).toNat < PRIME ∧
      (Memory.read s.sy (s.recBase.toNat + i)).toNat < PRIME) →
    (∀ i < k, ∀ l < k, i ≠ l →
      Memory.read s.sx (s.recBase.toNat + i) ≠ Memory.read s.sx (s.recBase.toNat + l)) →
    j < k → Memory.read s.sx (s.recBase.toNat + j) = 0 →
    exec (.reconstruct rd) s =
      .next (completed (s.f.set rd.val (Memory.read s.sy (s.recBase.toNat + j))) s.sx s.sy s.ndraws s)

/-- 43_reconstruction.md R235 (an inference the spec marks as its own): k ≥ t shares with pairwise distinct x-coordinates, each the point of one polynomial with t
canonical coefficients (as GENERATE writes them, 42_share_generation.md R213), give back its constant term exactly. -/
def Obligations.ReconstructRecoversSecret : Prop :=
  ∀ (s : State) (rd : RegIdx) (t k : Nat) (a : Nat → Nat), k = s.recCount.toNat →
    s.recBase.toNat + k ≤ s.params.maxShares → 1 ≤ t → t ≤ k → (∀ i < t, a i < PRIME) →
    (∀ j < k, (Memory.read s.sx (s.recBase.toNat + j)).toNat < PRIME) →
    (∀ i < k, ∀ j < k, i ≠ j →
      Memory.read s.sx (s.recBase.toNat + i) ≠ Memory.read s.sx (s.recBase.toNat + j)) →
    (∀ j < k, (Memory.read s.sy (s.recBase.toNat + j)).toNat =
      (∑ i ∈ Finset.range t, a i * (Memory.read s.sx (s.recBase.toNat + j)).toNat ^ i) % PRIME) →
    exec (.reconstruct rd) s = .next (completed (s.f.set rd.val (BitVec.ofNat 256 (a 0))) s.sx s.sy s.ndraws s)

/-! ### Frames -/

/-- 10_state.md R34: no command changes a field register that is not its destination, whatever it answers. NOP and
GENERATE have no destination. -/
def Obligations.FrameFieldRegisters : Prop :=
  ∀ (i : Instr) (s t : State) (r : RegIdx), exec i s = .next t → destination i ≠ some r →
    readField r t = readField r s

/-- 10_state.md R36; 42_share_generation.md R213, R218: no command but GENERATE changes an entry of the share memory, and
GENERATE changes none from n on, n its local, and none at all in its first core step. -/
def Obligations.FrameShareMemory : Prop :=
  ∀ (i : Instr) (s t : State), StoresOk s → exec i s = .next t →
    ((∀ ra, i ≠ .generate ra) → t.sx = s.sx ∧ t.sy = s.sy) ∧
    (∀ th n secret j, s.stage = .coeffs th n secret ∨ s.stage = .xs th n secret → n ≤ j →
      Memory.read t.sx j = Memory.read s.sx j ∧ Memory.read t.sy j = Memory.read s.sy j) ∧
    (s.stage = .start → t.sx = s.sx ∧ t.sy = s.sy)

/-- 10_state.md R57 to R69; 44_control.md R253; 60_exceptions.md R279: no command changes the parameters, cur, OVERRUN, IE, a
parameter register, SIDX, or the environment's side of the state (schedule, cycle, freeTurns, hostData: log entries 1, 6,
18); every next state keeps FATAL. That INTERNAL_FAULT, whose completion sets FATAL, ends in a fault and is no next state is
the model's reading (DEDUCED, log entry 7). -/
def Obligations.FrameHostRegisters : Prop :=
  ∀ (i : Instr) (s t : State), exec i s = .next t →
    t.params = s.params ∧ t.cur = s.cur ∧ t.overrun = s.overrun ∧ t.fatal = s.fatal ∧ t.doneIE = s.doneIE ∧
    t.errIE = s.errIE ∧ t.genT = s.genT ∧ t.genN = s.genN ∧ t.recBase = s.recBase ∧ t.recCount = s.recCount ∧
    t.sidx = s.sidx ∧ t.hostData = s.hostData ∧ t.schedule = s.schedule ∧ t.cycle = s.cycle ∧
    t.freeTurns = s.freeTurns

/-- 60_exceptions.md R276: a command that ends with an error has written no field register and, but for a GENERATE that
RANDOMNESS_UNAVAILABLE aborts (R218), no share; it makes no further draw and the draws before the error count; DONE, ERR
and ERRCODE are set and the core is idle with A and BUF zeroed. -/
def Obligations.NoPartialResults : Prop :=
  ∀ (i : Instr) (s t : State) (e : CmdError), exec i s = .next t → s.errcode = none → t.errcode = some e →
    t.f = s.f ∧ ((∀ ra, i ≠ .generate ra) ∨ e ≠ .randomnessUnavailable → t.sx = s.sx ∧ t.sy = s.sy) ∧
    t.entropyCount = s.entropyCount + BitVec.ofNat 32 s.ndraws ∧ t.drawId = s.drawId ∧
    t.err = true ∧ t.done = true ∧ t.phase = .idle ∧ t.coeffA = [] ∧ t.batchBuf = []

/-- 44_control.md R252, R253: while a command goes on, nothing of its work shows: no data changes, every offset of the
window holds the value it held, and IRQ keeps its level. -/
def Obligations.BusyHidesProgress : Prop :=
  ∀ (i : Instr) (s t : State), s.phase = .exec → exec i s = .next t → t.phase = .exec →
    t.f = s.f ∧ t.sx = s.sx ∧ t.sy = s.sy ∧ (∀ a : Addr, locValue (locOf a) t = locValue (locOf a) s) ∧ t.irq = s.irq

/-- 00_scope.md R16, 10_state.md R33: every value a command writes to a field register, to SX or to SY is canonical. -/
def Obligations.WrittenValuesCanonical : Prop :=
  ∀ (i : Instr) (s t : State), MachineInv s → exec i s = .next t →
    (∀ r : RegIdx, readField r t = readField r s ∨ (readField r t).toNat < PRIME) ∧
    (∀ j, Memory.read t.sx j = Memory.read s.sx j ∨ (Memory.read t.sx j).toNat < PRIME) ∧
    (∀ j, Memory.read t.sy j = Memory.read s.sy j ∨ (Memory.read t.sy j).toNat < PRIME)

/-- 44_control.md R255: NOP, the arithmetic commands, RECONSTRUCT, every illegal word and every GENERATE that aborts in
its checks are over after one core turn, whenever it comes. -/
def Obligations.DrawlessCommandsEndInOneTurn : Prop :=
  ∀ s : State, MachineInv s → s.phase = .exec → s.stage = .start → upcoming s = .core →
    (∀ rd, decode s.cur ≠ some (.rand rd)) → (∀ rd, decode s.cur ≠ some (.randnz rd)) →
    (∀ ra, decode s.cur = some (.generate ra) →
      s.genT.toNat ≤ 1 ∨ s.genN.toNat < s.genT.toNat ∨ s.params.maxShares < s.genN.toNat ∨
        PRIME ≤ (readField ra s).toNat) →
    ∃ t, step s = .next t ∧ t.phase = .idle ∧ t.done = true ∧ t.drawId = s.drawId

/-- 44_control.md R255, R256; 41_sampling.md R191, R194: the two hangs are infinite executions, and only SOFT_RESET ends
a wait whose answer does not come.
A source that never answers: where the core alone moves for ever, a command that waits for its draw waits after every
number of steps. A source whose answers put a zero into every batch: every batch of RANDNZ or GENERATE is redrawn for
ever, every draw answered, BUSY never cleared. A waiting command is left waiting by every step but an answer to its draw,
which it then holds, and a reset. The turns that come for ever are those of the model's `cycle` (log entry 1), and that
`none` answers the draw that is pending is log entry 4. -/
def Obligations.HangsAreEndless : Prop :=
  (∀ s : State, AwaitsAnswer s → s.schedule = [] → s.cycle = [.core] → ∀ n, run n s = .next s) ∧
  (∀ (s : State) (i : Instr) (k : Nat) (b : Vector Byte 32), AwaitsAnswer s → decode s.cur = some i →
    RunsBatch i s.stage k → s.loopIdx < k → Memory.wf s.batchBuf = true → sample b = 0 →
    s.schedule = [] → s.cycle = [.entropy none (.ok b), .core] →
    ∀ n, ∃ t, run (2 * n) s = .next t ∧ AwaitsAnswer t ∧ t.stage = s.stage ∧ t.ndraws = s.ndraws + n ∧
      t.entropyCount = s.entropyCount) ∧
  (∀ s t : State, AwaitsAnswer s → step s = .next t →
    AwaitsAnswer t ∨ ResetsNext s ∨
      ∃ d r, upcoming s = .entropy d r ∧ (d = none ∨ d = some s.drawId) ∧
        t.phase = .exec ∧ t.ereq = .none ∧ t.reply = some r)

/-! ### The whole machine -/

/-- 10_state.md R76: every piece of state at its reset value. The values of drawId, hostData, schedule, cycle, freeTurns,
INV_ALGO and BLOCK_BASE are the model's (log entries 1, 2, 4, 6, 18) and are not stated. -/
def Obligations.ResetValues : Prop :=
  let s := State.reset
  (∀ r : RegIdx, readField r s = 0) ∧ (∀ j, Memory.read s.sx j = 0 ∧ Memory.read s.sy j = 0) ∧
  (∀ j, Memory.read s.coeffA j = 0 ∧ Memory.read s.batchBuf j = 0) ∧
  s.phase = .idle ∧ s.cur = 0 ∧ s.ereq = .none ∧ statusWord s = 0 ∧ errcodeWord s = 0 ∧ ieWord s = 0 ∧
  (hostAccess (.read 0x008) s).hostData = 0 ∧
  s.genT = 0 ∧ s.genN = 0 ∧ s.recBase = 0 ∧ s.recCount = 0 ∧ s.sidx = 0 ∧ s.entropyCount = 0 ∧
  (hostAccess (.read 0x000) s).hostData = 0x53535343 ∧ (hostAccess (.read 0x004) s).hostData = 0x00100100 ∧
  s.irq = false

/-- 10_state.md R76: the reset state meets the invariant (Sys2Proof/Safety.lean); its clauses about the model's own fields
(stage, loopIdx, ndraws, reply) rest on log entries 5 and 11. -/
def Obligations.ResetMeetsInvariant : Prop := MachineInv State.reset

/-- 10_state.md R37 to R40, R54 to R59: every step from a state that meets the invariant ends in one that does: the stores
keep their canonical form within MAX_SHARES, A and BUF are zero and no draw is pending between commands, the progress of a
command fits its word, ERR stands with ERRCODE, INTERNAL_FAULT is never reported (its run ends in the fault of log entry
7). The clauses about the model's own fields rest on log entries 5 and 11. -/
def Obligations.StepKeepsInvariant : Prop := ∀ s t : State, MachineInv s → step s = .next t → MachineInv t

/-- 40_field_arithmetic.md R165, 42_share_generation.md R210, R214, 60_exceptions.md R279: INTERNAL_FAULT is unreachable:
from a state that meets the invariant every step answers a next state. -/
def Obligations.StepNeverFaults : Prop := ∀ s : State, MachineInv s → ∃ t, step s = .next t

/-- 70_reset_and_hazards.md R301, 00_scope.md R11: no step, a reset among them, changes MAX_SHARES or INV_ALGO,
nor BLOCK_BASE (20_memory.md R98), which is the model's parameter (log entry 2). -/
def Obligations.ParametersNeverChange : Prop := ∀ s t : State, step s = .next t → t.params = s.params

/-- 10_state.md R58, 44_control.md R253, 60_exceptions.md R279: FATAL is set by the completion of a command that aborted with
INTERNAL_FAULT and by no other step; only reset clears it; while it is set a write to CMD accepts nothing. That this
completion is the state a fault carries, and so that no next state sets FATAL, is the model's reading (DEDUCED, log
entry 7). -/
def Obligations.FatalLocksUntilReset : Prop :=
  (∀ (i : Instr) (s left : State), exec i s = .fault (.internalFault left) →
    left.fatal = true ∧ left.err = true ∧ left.done = true ∧ left.errcode = some .internalFault ∧ left.phase = .idle) ∧
  (∀ s t : State, step s = .next t → s.fatal = false → t.fatal = false) ∧
  (∀ s t : State, step s = .next t → s.fatal = true → t.fatal = true ∨ ResetsNext s) ∧
  (∀ (s : State) (w : Word32), s.fatal = true → hostAccess (.write 0x018 w) s = { s with overrun := true })

/-- 41_sampling.md R191, 10_state.md R40, 70_reset_and_hazards.md R302: the answer to the pending draw is handed to the
waiting command and ends the request; an answer that comes when no draw is pending, or that is to a draw other than the
pending one (a draw abandoned by a reset), changes nothing; a reset leaves no draw pending and keeps the count of the draws;
a core step either issues no draw, the count and ereq kept, or issues one under the next number and leaves it pending. That
the model tells the draws apart by a number, and that `none` answers whichever draw is pending, is log entry 4. -/
def Obligations.EntropyAnswers : Prop :=
  ∀ (s : State) (d : Option Nat) (r : Reply), upcoming s = .entropy d r →
    (s.ereq = .pending → d = none ∨ d = some s.drawId →
      step s = .next { advance s with ereq := .none, reply := some r }) ∧
    (s.ereq = .none ∨ (d ≠ none ∧ d ≠ some s.drawId) → step s = .next (advance s)) ∧
    (softReset s).ereq = .none ∧ (softReset s).drawId = s.drawId ∧
    (∀ i t, exec i s = .next t → (t.drawId = s.drawId ∧ t.ereq = s.ereq) ∨ (t.drawId = s.drawId + 1 ∧ t.ereq = .pending))

/-! ### The host's window -/

/-- 20_memory.md R91: every access reaches the word at addr & 0xFFC, and no access raises an error. -/
def Obligations.LowAddressBitsIgnored : Prop :=
  ∀ (s : State) (a : Addr) (v : Word32),
    hostAccess (.read a) s = hostAccess (.read (a &&& 0xFFC)) s ∧
    hostAccess (.write a v) s = hostAccess (.write (a &&& 0xFFC) v) s ∧
    (∀ acc, upcoming s = .host acc → step s = .next (hostAccess acc (advance s)))

/-- 20_memory.md R95: a read of a window word while busy returns 0 and sets OVERRUN; every other read has no side effect. -/
def Obligations.ReadSideEffects : Prop :=
  ∀ (s : State) (a : Addr),
    (s.phase = .exec → 0x100 ≤ a.toNat → a.toNat < 0x340 →
      hostAccess (.read a) s = { s with overrun := true, hostData := 0 }) ∧
    (s.phase = .idle ∨ a.toNat < 0x100 ∨ 0x340 ≤ a.toNat →
      ∃ v, hostAccess (.read a) s = { s with hostData := v })

/-- 10_state.md R51: a read of a reserved offset returns 0, a write to it has no effect, and neither sets a flag. -/
def Obligations.ReservedOffsets : Prop :=
  ∀ (s : State) (a : Addr) (v : Word32), (0x034 ≤ a.toNat ∧ a.toNat < 0x100) ∨ 0x340 ≤ a.toNat →
    hostAccess (.read a) s = { s with hostData := 0 } ∧ hostAccess (.write a v) s = s

/-- 10_state.md R62 to R70: what the host reads at the plain registers, whatever the phase, and that a write to a read-only
one changes nothing; the parameter registers and SIDX take a write while the block is idle. -/
def Obligations.PlainRegisters : Prop :=
  ∀ (s : State) (v : Word32),
    (hostAccess (.read 0x000) s).hostData = 0x53535343 ∧
    ((hostAccess (.read 0x004) s).hostData.extractLsb' 0 16 = BitVec.ofNat 16 s.params.maxShares ∧
      (hostAccess (.read 0x004) s).hostData.extractLsb' 16 16 = 0x0010) ∧
    (hostAccess (.read 0x018) s).hostData = s.cur ∧ (hostAccess (.read 0x01C) s).hostData = s.genT ∧
    (hostAccess (.read 0x020) s).hostData = s.genN ∧ (hostAccess (.read 0x024) s).hostData = s.recBase ∧
    (hostAccess (.read 0x028) s).hostData = s.recCount ∧ (hostAccess (.read 0x02C) s).hostData = s.sidx ∧
    (hostAccess (.read 0x030) s).hostData = s.entropyCount ∧
    (hostAccess (.write 0x000 v) s = s ∧ hostAccess (.write 0x004 v) s = s ∧ hostAccess (.write 0x010 v) s = s ∧
      hostAccess (.write 0x030 v) s = s) ∧
    (s.phase = .idle →
      hostAccess (.write 0x01C v) s = { s with genT := v } ∧ hostAccess (.write 0x020 v) s = { s with genN := v } ∧
      hostAccess (.write 0x024 v) s = { s with recBase := v } ∧
      hostAccess (.write 0x028 v) s = { s with recCount := v } ∧ hostAccess (.write 0x02C v) s = { s with sidx := v })

/-- 10_state.md R71: the FREG window. Idle: a read of word k of F[r] gives its bits 32k+31 to 32k, a write replaces exactly
those; busy: blocked. -/
def Obligations.FregWindow : Prop :=
  ∀ (s : State) (r : RegIdx) (k : Fin 8) (a : Addr) (v : Word32), a.toNat = 0x100 + 0x20 * r.val + 4 * k.val →
    (s.phase = .idle →
      (hostAccess (.read a) s).hostData = (readField r s).extractLsb' (32 * k.val) 32 ∧
      (readField r (hostAccess (.write a v) s)).extractLsb' (32 * k.val) 32 = v ∧
      (∀ j : Fin 8, j ≠ k → (readField r (hostAccess (.write a v) s)).extractLsb' (32 * j.val) 32 =
        (readField r s).extractLsb' (32 * j.val) 32) ∧
      (∀ q, q ≠ r → readField q (hostAccess (.write a v) s) = readField q s) ∧
      { hostAccess (.write a v) s with f := s.f } = s) ∧
    (s.phase = .exec →
      hostAccess (.read a) s = { s with overrun := true, hostData := 0 } ∧
      hostAccess (.write a v) s = { s with overrun := true })

/-- 10_state.md R72, R73: the SX and SY windows reach word k of entry SIDX while it exists; beyond MAX_SHARES a read gives 0
and a write is ignored, no flag set; busy: blocked. -/
def Obligations.ShareWindows : Prop :=
  ∀ (s : State) (k : Fin 8) (ax ay : Addr) (v : Word32), ax.toNat = 0x300 + 4 * k.val → ay.toNat = 0x320 + 4 * k.val →
    StoresOk s →
    (s.phase = .idle → s.sidx.toNat < s.params.maxShares →
      (hostAccess (.read ax) s).hostData = (Memory.read s.sx s.sidx.toNat).extractLsb' (32 * k.val) 32 ∧
      (hostAccess (.read ay) s).hostData = (Memory.read s.sy s.sidx.toNat).extractLsb' (32 * k.val) 32 ∧
      (∃ m, { s with sx := m } = hostAccess (.write ax v) s ∧
        (Memory.read m s.sidx.toNat).extractLsb' (32 * k.val) 32 = v ∧
        (∀ j : Fin 8, j ≠ k → (Memory.read m s.sidx.toNat).extractLsb' (32 * j.val) 32 =
          (Memory.read s.sx s.sidx.toNat).extractLsb' (32 * j.val) 32) ∧
        ∀ e, e ≠ s.sidx.toNat → Memory.read m e = Memory.read s.sx e) ∧
      (∃ m, { s with sy := m } = hostAccess (.write ay v) s ∧
        (Memory.read m s.sidx.toNat).extractLsb' (32 * k.val) 32 = v ∧
        (∀ j : Fin 8, j ≠ k → (Memory.read m s.sidx.toNat).extractLsb' (32 * j.val) 32 =
          (Memory.read s.sy s.sidx.toNat).extractLsb' (32 * j.val) 32) ∧
        ∀ e, e ≠ s.sidx.toNat → Memory.read m e = Memory.read s.sy e)) ∧
    (s.phase = .idle → s.params.maxShares ≤ s.sidx.toNat →
      hostAccess (.read ax) s = { s with hostData := 0 } ∧ hostAccess (.read ay) s = { s with hostData := 0 } ∧
      hostAccess (.write ax v) s = s ∧ hostAccess (.write ay v) s = s) ∧
    (s.phase = .exec → ∀ a ∈ [ax, ay],
      hostAccess (.read a) s = { s with overrun := true, hostData := 0 } ∧
      hostAccess (.write a v) s = { s with overrun := true })

/-- 10_state.md R57: the accesses that are blocked set OVERRUN and do nothing else, a blocked read returns 0; no other step
sets OVERRUN, accept and completion leave it, and only a 1 written to it or a reset clears it. -/
def Obligations.BlockedAccesses : Prop :=
  (∀ (s : State) (v : Word32), s.phase = .exec ∨ s.fatal = true →
    hostAccess (.write 0x018 v) s = { s with overrun := true }) ∧
  (∀ (s : State) (a : Addr) (v : Word32), s.phase = .exec →
    (0x01C ≤ a.toNat ∧ a.toNat < 0x030) ∨ (0x100 ≤ a.toNat ∧ a.toNat < 0x340) →
    hostAccess (.write a v) s = { s with overrun := true }) ∧
  (∀ (s : State) (a : Addr), s.phase = .exec → 0x100 ≤ a.toNat → a.toNat < 0x340 →
    hostAccess (.read a) s = { s with overrun := true, hostData := 0 }) ∧
  (∀ s t : State, step s = .next t → s.overrun = false → t.overrun = true →
    (∃ a v, upcoming s = .host (.write a v) ∧
      ((a &&& 0xFFC = 0x018 ∧ (s.phase = .exec ∨ s.fatal = true)) ∨
        (s.phase = .exec ∧ ((0x01C ≤ a.toNat ∧ a.toNat < 0x030) ∨ (0x100 ≤ a.toNat ∧ a.toNat < 0x340))))) ∨
    (∃ a, upcoming s = .host (.read a) ∧ s.phase = .exec ∧ 0x100 ≤ a.toNat ∧ a.toNat < 0x340)) ∧
  (∀ s t : State, step s = .next t → s.overrun = true →
    t.overrun = true ∨ ResetsNext s ∨
      ∃ a v, upcoming s = .host (.write a v) ∧ a &&& 0xFFC = 0x00C ∧ v.getLsbD 3 = true)

/-- 44_control.md R251: a write to CMD while the block is idle and not FATAL latches the word, clears DONE, ERR and ERRCODE,
makes the core busy at the start of the command with no draw made (its place and variables anew: 10_state.md R39, log
entry 11), and does nothing else, whatever the word is; otherwise it only sets OVERRUN. -/
def Obligations.AcceptCommandWrite : Prop :=
  ∀ (s : State) (w : Word32),
    (s.phase = .idle → s.fatal = false →
      hostAccess (.write 0x018 w) s =
        { s with cur := w, done := false, err := false, errcode := none, phase := .exec, ndraws := 0,
                 stage := .start, loopIdx := 0, reply := none }) ∧
    (s.phase = .exec ∨ s.fatal = true → hostAccess (.write 0x018 w) s = { s with overrun := true })

/-- 10_state.md R53, R55, R56: the bits the host reads in STATUS, and a write to STATUS, whatever the phase: a 1 clears
DONE, ERR (with ERRCODE) and OVERRUN, a 0 and every other bit do nothing. -/
def Obligations.StatusRegister : Prop :=
  ∀ (s : State) (v : Word32) (n : Nat),
    (hostAccess (.read 0x00C) s).hostData.getLsbD n =
      (if n = 0 then decide (s.phase = .exec) else if n = 1 then s.done else if n = 2 then s.err
        else if n = 3 then s.overrun else if n = 4 then s.fatal else false) ∧
    hostAccess (.write 0x00C v) s =
      { s with
        done    := if v.getLsbD 1 then false else s.done
        err     := if v.getLsbD 2 then false else s.err
        errcode := if v.getLsbD 2 then none else s.errcode
        overrun := if v.getLsbD 3 then false else s.overrun }

/-- 10_state.md R59, 60_exceptions.md R270: the number the host reads in ERRCODE for each error, 0 for none. -/
def Obligations.ErrorCodeNumbers : Prop :=
  ∀ s : State,
    (hostAccess (.read 0x010) s).hostData =
      (match s.errcode with
        | none => 0
        | some .invalidArgument => 1
        | some .divisionByZero => 2
        | some .malformedInput => 3
        | some .randomnessUnavailable => 4
        | some .illegalCommand => 5
        | some .capacity => 6
        | some .internalFault => 7)

/-- 10_state.md R60, R74; 60_exceptions.md R282: IE's two bits, written whatever the phase; and the three ways to clear a
pending interrupt: 1s written to the STATUS bits that cause it, the enables cleared, a new command accepted. -/
def Obligations.InterruptAcknowledged : Prop :=
  ∀ (s : State) (v w : Word32) (n : Nat),
    (hostAccess (.read 0x014) s).hostData.getLsbD n =
      (if n = 0 then s.doneIE else if n = 1 then s.errIE else false) ∧
    hostAccess (.write 0x014 v) s = { s with doneIE := v.getLsbD 0, errIE := v.getLsbD 1 } ∧
    (s.irq = true ↔ (s.done = true ∧ s.doneIE = true) ∨ (s.err = true ∧ s.errIE = true)) ∧
    ((s.done = true ∧ s.doneIE = true → v.getLsbD 1 = true) → (s.err = true ∧ s.errIE = true → v.getLsbD 2 = true) →
      (hostAccess (.write 0x00C v) s).irq = false) ∧
    (hostAccess (.write 0x014 0) s).irq = false ∧
    (s.phase = .idle → s.fatal = false → (hostAccess (.write 0x018 w) s).irq = false)

/-- 10_state.md R61, 70_reset_and_hazards.md R301, 44_control.md R256: a write of CTRL bit 0 = 1 puts the block into its reset
state whatever the phase and whatever command runs, the parameters kept; with bit 0 = 0 it does nothing; CTRL reads 0.
That the environment's fields (drawId, hostData, schedule, cycle, freeTurns) are kept is log entry 13. -/
def Obligations.SoftResetWrite : Prop :=
  ∀ (s : State) (v : Word32),
    (v.getLsbD 0 = true → hostAccess (.write 0x008 v) s =
      { State.reset with
        params := s.params, drawId := s.drawId, hostData := s.hostData, schedule := s.schedule, cycle := s.cycle,
        freeTurns := s.freeTurns }) ∧
    (v.getLsbD 0 = false → hostAccess (.write 0x008 v) s = s) ∧
    (hostAccess (.read 0x008) s).hostData = 0

/-- 10_state.md R37, R38, 42_share_generation.md R215: the host cannot see A or BUF: two states that differ only there answer
every host access alike, give the same value to the host, and still differ only there; and a completion leaves both zero. -/
def Obligations.HiddenStoresUnseen : Prop :=
  (∀ (s t : State) (acc : Access), SameButHidden s t →
    SameButHidden (hostAccess acc s) (hostAccess acc t) ∧
    (hostAccess acc s).hostData = (hostAccess acc t).hostData ∧ (hostAccess acc s).irq = (hostAccess acc t).irq) ∧
  (∀ (i : Instr) (s t : State), s.phase = .exec → exec i s = .next t → t.phase = .idle →
    t.coeffA = [] ∧ t.batchBuf = [])
end

