-- ==== Sys2Proof/Laws/Bits.lean ====
section
/-! SUPPORT. The words of a 256-bit value (20_memory.md R92) and the field registers: read after write. -/

namespace Sys2Proof.Machine

theorem wordOf_bit (v : Word256) (k : Fin 8) (i : Nat) :
    (wordOf v k).getLsbD i = (decide (i < 32) && v.getLsbD (32 * k.val + i)) := by
  simp [wordOf, BitVec.getLsbD_extractLsb']

/-- A bit of a value with one word replaced. -/
theorem setWord_bit (v : Word256) (k : Fin 8) (w : Word32) (i : Nat) (hi : i < 256) :
    (setWord v k w).getLsbD i =
      if 32 * k.val ≤ i ∧ i < 32 * k.val + 32 then w.getLsbD (i - 32 * k.val) else v.getLsbD i := by
  have hm : ∀ j, (0xFFFFFFFF : Word256).getLsbD j = decide (j < 32) := by
    intro j
    have : (0xFFFFFFFF : Word256) = BitVec.setWidth 256 (BitVec.allOnes 32) := by decide
    rw [this, BitVec.getLsbD_setWidth, BitVec.getLsbD_allOnes]
    by_cases hj : j < 32
    · simp [hj]; omega
    · simp [hj]
  simp only [setWord, BitVec.getLsbD_or, BitVec.getLsbD_and, BitVec.getLsbD_not, BitVec.getLsbD_shiftLeft,
    BitVec.getLsbD_setWidth, hi, decide_true, Bool.true_and]
  rw [hm]
  by_cases h1 : 32 * k.val ≤ i
  · by_cases h2 : i < 32 * k.val + 32
    · have h3 : i - 32 * k.val < 32 := by omega
      have h4 : i - 32 * k.val < 256 := by omega
      simp [h1, h2, h3, h4, Nat.not_lt.2 h1]
    · have h3 : ¬ i - 32 * k.val < 32 := by omega
      have h5 : w.getLsbD (i - 32 * k.val) = false := BitVec.getLsbD_of_ge _ _ (by omega)
      simp [h1, h2, h3, h5, Nat.not_lt.2 h1]
  · simp [h1, Nat.lt_of_not_le h1]

/-- The word written is the word read. -/
theorem wordOf_setWord_same (v : Word256) (k : Fin 8) (w : Word32) : wordOf (setWord v k w) k = w := by
  apply BitVec.eq_of_getLsbD_eq
  intro i hi
  rw [wordOf_bit, setWord_bit _ _ _ _ (by omega)]
  simp [hi]

/-- Every other word is kept. -/
theorem wordOf_setWord_other (v : Word256) {j k : Fin 8} (w : Word32) (h : j ≠ k) :
    wordOf (setWord v k w) j = wordOf v j := by
  apply BitVec.eq_of_getLsbD_eq
  intro i hi
  have hjk : j.val ≠ k.val := fun hc => h (Fin.ext hc)
  rw [wordOf_bit, wordOf_bit, setWord_bit _ _ _ _ (by omega)]
  have : ¬ (32 * k.val ≤ 32 * j.val + i ∧ 32 * j.val + i < 32 * k.val + 32) := by omega
  simp [this]

@[simp] theorem readField_writeRaw_same (r : RegIdx) (v : Word256) (s : State) :
    readField r (writeRaw r v s) = v := by
  simp [readField, writeRaw]

theorem readField_writeRaw_other {q r : RegIdx} (v : Word256) (s : State) (h : q ≠ r) :
    readField q (writeRaw r v s) = readField q s := by
  have : r.val ≠ q.val := fun hc => h (Fin.ext hc.symm)
  simp [readField, writeRaw, this]

end Sys2Proof.Machine
end

