-- ==== Sys2Proof/Laws/Prime.lean ====
section
/-! SUPPORT. PRIME is prime (00_scope.md R4), by a chain of Lucas certificates: for each number of the chain a base and
the prime factors of its predecessor. The kernel evaluates the modular powers. -/

-- A kernel evaluation waits for every earlier proof; one after the other it holds no extra thread.
set_option Elab.async false

namespace Sys2Proof.Laws

/-- a^e mod m by squaring, for e below 2^bits. -/
def modPow (m : Nat) : Nat → Nat → Nat → Nat
  | 0, _, _ => 1 % m
  | bits + 1, a, e => if e % 2 = 1 then a * modPow m bits (a * a % m) (e / 2) % m else modPow m bits (a * a % m) (e / 2)

theorem modPow_eq (m : Nat) : ∀ bits a e, e < 2 ^ bits → modPow m bits a e = a ^ e % m := by
  intro bits
  induction bits with
  | zero => intro a e h; obtain rfl : e = 0 := by simpa using h
            simp [modPow]
  | succ n ih =>
    intro a e h
    have hlt : e / 2 < 2 ^ n := by rw [pow_succ] at h; omega
    have hsq : (a * a % m) ^ (e / 2) % m = a ^ (2 * (e / 2)) % m := by
      rw [← Nat.pow_mod, ← pow_two, ← pow_mul]
    unfold modPow
    rw [ih _ _ hlt, hsq]
    split
    · rename_i hodd
      rw [Nat.mul_mod_mod, ← pow_succ']
      congr 2; omega
    · congr 2; omega

/-- Lucas' criterion with the predecessor's prime factors listed. -/
theorem prime_of_factors {p : Nat} (a : Nat) (factors : List Nat) (hp : 1 < p) (hlt : p < 2 ^ 256)
    (hprod : factors.prod = p - 1) (hprime : ∀ q ∈ factors, q.Prime)
    (hone : modPow p 256 a (p - 1) = 1)
    (hne : factors.all (fun q => modPow p 256 a ((p - 1) / q) != 1) = true) : p.Prime := by
  have cast : ∀ e, e < 2 ^ 256 → (((a : ZMod p) ^ e = 1) ↔ modPow p 256 a e = 1) := by
    intro e he
    rw [modPow_eq p 256 a e he]
    have : ((a : ZMod p) ^ e = 1) ↔ (((a ^ e : Nat) : ZMod p) = ((1 : Nat) : ZMod p)) := by push_cast; rfl
    rw [this, ZMod.natCast_eq_natCast_iff']
    rw [Nat.mod_eq_of_lt hp]
  refine lucas_primality p (a : ZMod p) ((cast _ (by omega)).2 hone) ?_
  intro q hq hdvd
  rw [← hprod, Prime.dvd_prod_iff hq.prime] at hdvd
  obtain ⟨r, hr, hqr⟩ := hdvd
  have hqr' : q = r := (Nat.prime_dvd_prime_iff_eq hq (hprime r hr)).1 hqr
  subst hqr'
  rw [Ne, cast _ (lt_of_le_of_lt (Nat.div_le_self _ _) (by omega))]
  simpa using List.all_eq_true.1 hne q hr

theorem prime_173378833005251801 : Nat.Prime 173378833005251801 :=
  prime_of_factors 6 [2, 2, 2, 5, 5, 2621, 24809, 13331831] (by norm_num) (by norm_num) (by norm_num)
    (by intro q hq; fin_cases hq <;> norm_num) (by decide +kernel) (by decide +kernel)

theorem prime_22149492674086928081353 : Nat.Prime 22149492674086928081353 :=
  prime_of_factors 5 [2, 2, 2, 3, 5323, 173378833005251801] (by norm_num) (by norm_num) (by norm_num)
    (by intro q hq; fin_cases hq <;> first | exact prime_173378833005251801 | norm_num)
    (by decide +kernel) (by decide +kernel)

theorem prime_132896956044521568488119 : Nat.Prime 132896956044521568488119 :=
  prime_of_factors 6 [2, 3, 22149492674086928081353] (by norm_num) (by norm_num) (by norm_num)
    (by intro q hq; fin_cases hq <;> first | exact prime_22149492674086928081353 | norm_num)
    (by decide +kernel) (by decide +kernel)

theorem prime_255515944373312847190720520512484175977 : Nat.Prime 255515944373312847190720520512484175977 :=
  prime_of_factors 3 [2, 2, 2, 7, 7, 11, 1627, 2657, 4423, 41201, 96557, 7240687, 107590001]
    (by norm_num) (by norm_num) (by norm_num)
    (by intro q hq; fin_cases hq <;> norm_num) (by decide +kernel) (by decide +kernel)

theorem prime_big_factor :
    Nat.Prime 205115282021455665897114700593932402728804164701536103180137503955397371 :=
  prime_of_factors 10
    [2, 3, 5, 29, 29, 31, 7723, 132896956044521568488119, 255515944373312847190720520512484175977]
    (by norm_num) (by norm_num) (by norm_num)
    (by
      intro q hq
      fin_cases hq <;> first
        | exact prime_132896956044521568488119
        | exact prime_255515944373312847190720520512484175977
        | norm_num)
    (by decide +kernel) (by decide +kernel)

/-- PRIME is prime (00_scope.md R4). -/
theorem prime_PRIME : Nat.Prime PRIME :=
  prime_of_factors 3
    [2, 3, 7, 13441, 205115282021455665897114700593932402728804164701536103180137503955397371]
    (by decide +kernel) (by decide +kernel) (by decide +kernel)
    (by intro q hq; fin_cases hq <;> first | exact prime_big_factor | norm_num)
    (by decide +kernel) (by decide +kernel)

end Sys2Proof.Laws
end

