-- ==== Sys2Proof/Laws/Field.lean ====
section
/-! SUPPORT. The field primitives as arithmetic modulo PRIME and in ZMod PRIME, and what the loops of the two inverse
engines compute (40_field_arithmetic.md R151 to R153, R163, R164). -/

-- A kernel evaluation waits for every earlier proof; one after the other it holds no extra thread.
set_option Elab.async false

namespace Sys2Proof.Machine

theorem PRIME_eq : PRIME = 0xFFFFFFFFFFFFFFFFFFFFFFFFFFFFFFFFFFFFFFFFFFFFFFFFFFFFFFFEFFFFFC2F := by decide +kernel

theorem one_lt_PRIME : 1 < PRIME := by decide +kernel

theorem PRIME_pos : 0 < PRIME := by decide +kernel

theorem PRIME_lt_two_pow : PRIME < 2 ^ 256 := by decide +kernel

theorem two_pow_lt_two_PRIME : 2 ^ 256 < 2 * PRIME := by decide +kernel

@[simp] theorem canon_iff (v : Nat) : canon v = true ↔ v < PRIME := by simp [canon]

@[simp] theorem canon_false_iff (v : Nat) : canon v = false ↔ PRIME ≤ v := by simp [canon]

/-- A canonical integer survives being stored. -/
theorem toNat_ofNat_of_lt {v : Nat} (h : v < PRIME) : (BitVec.ofNat 256 v).toNat = v := by
  rw [BitVec.toNat_ofNat]
  exact Nat.mod_eq_of_lt (lt_trans h PRIME_lt_two_pow)

theorem fadd_eq_mod {a b : Nat} (ha : a < PRIME) (hb : b < PRIME) : fadd a b = (a + b) % PRIME := by
  simp only [fadd]
  split
  · rw [Nat.mod_eq_sub_mod (by assumption), Nat.mod_eq_of_lt (by omega)]
  · rw [Nat.mod_eq_of_lt (by omega)]

theorem fadd_lt {a b : Nat} (ha : a < PRIME) (hb : b < PRIME) : fadd a b < PRIME := by
  rw [fadd_eq_mod ha hb]; exact Nat.mod_lt _ PRIME_pos

theorem fsub_lt {a b : Nat} (ha : a < PRIME) (hb : b < PRIME) : fsub a b < PRIME := by
  simp only [fsub]; split <;> omega

theorem fmul_lt (a b : Nat) : fmul a b < PRIME := Nat.mod_lt _ PRIME_pos

theorem fsub_eq_mod {a b : Nat} (_ : a < PRIME) (hb : b < PRIME) : fsub a b = (a + (PRIME - b)) % PRIME := by
  simp only [fsub]
  split
  · rw [Nat.mod_eq_of_lt (by omega)]; omega
  · rw [Nat.mod_eq_sub_mod (by omega), Nat.mod_eq_of_lt (by omega)]; omega

theorem fsub_eq_zero_iff {a b : Nat} (_ : a < PRIME) (hb : b < PRIME) : fsub a b = 0 ↔ a = b := by
  simp only [fsub]; split <;> omega

theorem fadd_cast {a b : Nat} (ha : a < PRIME) (hb : b < PRIME) : ((fadd a b : Nat) : ZMod PRIME) = a + b := by
  rw [fadd_eq_mod ha hb, ZMod.natCast_mod]; push_cast; rfl

theorem fmul_cast (a b : Nat) : ((fmul a b : Nat) : ZMod PRIME) = a * b := by
  rw [fmul, ZMod.natCast_mod]; push_cast; rfl

theorem fsub_cast {a b : Nat} (ha : a < PRIME) (hb : b < PRIME) : ((fsub a b : Nat) : ZMod PRIME) = a - b := by
  rw [fsub_eq_mod ha hb, ZMod.natCast_mod]
  rw [Nat.cast_add, Nat.cast_sub hb.le, ZMod.natCast_self]
  ring

/-- Canonical integers with the same residue are equal. -/
theorem eq_of_cast {a b : Nat} (ha : a < PRIME) (hb : b < PRIME) (h : ((a : Nat) : ZMod PRIME) = b) : a = b := by
  rw [ZMod.natCast_eq_natCast_iff', Nat.mod_eq_of_lt ha, Nat.mod_eq_of_lt hb] at h
  exact h

/-- What the extended Euclidean loop keeps: its first number ends at the gcd, its second is a's cofactor of it. -/
theorem euclidLoop_spec (m a : Int) : ∀ fuel r0 r1 s0 s1, r1 < fuel →
    (s0 * a ≡ (r0 : Nat) [ZMOD m]) → (s1 * a ≡ (r1 : Nat) [ZMOD m]) →
    (euclidLoop fuel r0 r1 s0 s1).1 = Nat.gcd r0 r1 ∧
    ((euclidLoop fuel r0 r1 s0 s1).2 * a ≡ ((euclidLoop fuel r0 r1 s0 s1).1 : Nat) [ZMOD m]) := by
  intro fuel
  induction fuel with
  | zero => intro r0 r1 s0 s1 h; omega
  | succ n ih =>
    intro r0 r1 s0 s1 hlt h0 h1
    simp only [euclidLoop]
    split
    · rename_i hz
      subst hz
      exact ⟨by simp, h0⟩
    · rename_i hz
      have hmod : r0 - r0 / r1 * r1 = r0 % r1 := by
        have := Nat.div_add_mod r0 r1
        rw [Nat.mul_comm] at this
        omega
      have hr : r0 % r1 < r1 := Nat.mod_lt _ (Nat.pos_of_ne_zero hz)
      rw [hmod]
      have hstep : (s0 - ((r0 / r1 : Nat) : Int) * s1) * a ≡ ((r0 % r1 : Nat) : Int) [ZMOD m] := by
        have e1 : (s0 - ((r0 / r1 : Nat) : Int) * s1) * a = s0 * a - ((r0 / r1 : Nat) : Int) * (s1 * a) := by ring
        have e2 : ((r0 % r1 : Nat) : Int) = (r0 : Int) - ((r0 / r1 : Nat) : Int) * (r1 : Int) := by
          rw [← hmod, Nat.cast_sub (Nat.div_mul_le_self r0 r1)]; push_cast; ring
        rw [e1, e2]
        exact Int.ModEq.sub h0 (Int.ModEq.mul_left _ h1)
      obtain ⟨hg, hc⟩ := ih r1 (r0 % r1) s1 _ (by omega) h1 hstep
      refine ⟨?_, hc⟩
      rw [hg, Nat.gcd_comm r0 r1, Nat.gcd_rec r1 r0, Nat.gcd_comm]

/-- The exponentiation of the Fermat engine. -/
theorem powMod_cast : ∀ bits a e, e < 2 ^ bits → ((powMod bits a e : Nat) : ZMod PRIME) = (a : ZMod PRIME) ^ e := by
  intro bits
  induction bits with
  | zero => intro a e h; obtain rfl : e = 0 := by simpa using h
            simp [powMod]
  | succ n ih =>
    intro a e h
    have hlt : e / 2 < 2 ^ n := by rw [pow_succ] at h; omega
    have hsq : ((powMod n (fmul a a) (e / 2) : Nat) : ZMod PRIME) = (a : ZMod PRIME) ^ (2 * (e / 2)) := by
      rw [ih _ _ hlt, fmul_cast, ← pow_two, ← pow_mul]
    simp only [powMod]
    split
    · rename_i hodd
      rw [fmul_cast, hsq, ← pow_succ']
      congr 1; omega
    · rename_i heven
      rw [hsq]
      congr 1; omega

theorem powMod_lt (bits a e : Nat) : powMod bits a e < PRIME := by
  induction bits generalizing a e with
  | zero => exact one_lt_PRIME
  | succ n ih => simp only [powMod]; split; exacts [fmul_lt _ _, ih _ _]

end Sys2Proof.Machine
end

