-- ==== Sys2Proof/Laws/Memory.lean ====
section
/-! SUPPORT. The laws of the stores: read after write, and that every operation keeps the canonical form and the bound. -/

namespace Sys2Proof.Machine

@[simp] theorem memory_read_nil (a : Nat) : Memory.read [] a = 0 := rfl

@[simp] theorem memory_read_cons_self (k : Nat) (w : Word256) (rest : Memory) :
    Memory.read ((k, w) :: rest) k = w := if_pos rfl

@[simp] theorem memory_wf_nil : Memory.wf [] = true := rfl

@[simp] theorem memory_within_nil (bound : Nat) : Memory.within bound [] = true := rfl

theorem memory_wf_cons (k : Nat) (w : Word256) (rest : Memory) :
    Memory.wf ((k, w) :: rest) = true ↔ w ≠ 0 ∧ (∀ p ∈ rest, k < p.1) ∧ Memory.wf rest = true := by
  simp [Memory.wf, and_assoc]

theorem memory_within_iff (bound : Nat) (m : Memory) : Memory.within bound m = true ↔ ∀ p ∈ m, p.1 < bound := by
  simp [Memory.within]

/-- An entry below every listed one reads 0. -/
theorem memory_read_of_lt {m : Memory} {a : Nat} (h : ∀ p ∈ m, a < p.1) : Memory.read m a = 0 := by
  induction m with
  | nil => rfl
  | cons p rest ih =>
    obtain ⟨k, w⟩ := p
    have hk : a < k := h (k, w) (by simp)
    simp only [Memory.read, if_neg (Nat.ne_of_lt hk)]
    exact ih fun q hq => h q (List.mem_cons_of_mem _ hq)

/-- An entry that does not exist reads 0. -/
theorem memory_read_of_within {bound : Nat} {m : Memory} (h : Memory.within bound m = true) {a : Nat}
    (ha : bound ≤ a) : Memory.read m a = 0 := by
  rw [memory_within_iff] at h
  induction m with
  | nil => rfl
  | cons p rest ih =>
    obtain ⟨k, w⟩ := p
    have hk : k < bound := h (k, w) (by simp)
    have hne : a ≠ k := by omega
    simp only [Memory.read, if_neg hne]
    exact ih fun q hq => h q (List.mem_cons_of_mem _ hq)

/-- The listed numbers after a write: those before it, and the one written. -/
theorem memory_write_mem {m : Memory} {a : Nat} {v : Word256} {p : Nat × Word256}
    (h : p ∈ Memory.write m a v) : p ∈ m ∨ p.1 = a := by
  induction m with
  | nil => simp only [Memory.write] at h; split at h <;> simp_all
  | cons q rest ih =>
    obtain ⟨k, w⟩ := q
    simp only [Memory.write] at h
    split_ifs at h <;> simp only [List.mem_cons] at h ⊢ <;> try tauto
    all_goals rcases h with rfl | h <;> simp_all

theorem memory_write_within {bound : Nat} {m : Memory} {a : Nat} (v : Word256)
    (h : Memory.within bound m = true) (ha : a < bound) : Memory.within bound (Memory.write m a v) = true := by
  rw [memory_within_iff] at h ⊢
  intro p hp
  rcases memory_write_mem hp with hp | hp
  · exact h p hp
  · omega

/-- A write keeps the canonical form. -/
theorem memory_write_wf {m : Memory} (a : Nat) (v : Word256) (h : Memory.wf m = true) :
    Memory.wf (Memory.write m a v) = true := by
  induction m with
  | nil => simp only [Memory.write]; split <;> simp_all [Memory.wf]
  | cons q rest ih =>
    obtain ⟨k, w⟩ := q
    have h' := h
    rw [memory_wf_cons] at h'
    obtain ⟨hw, hlt, hrest⟩ := h'
    simp only [Memory.write]
    split_ifs with h1 h2 h3 h4
    · exact h
    · rw [memory_wf_cons]
      refine ⟨h2, ?_, h⟩
      intro p hp
      rcases List.mem_cons.1 hp with rfl | hp
      · exact h1
      · exact lt_trans h1 (hlt p hp)
    · exact hrest
    · subst h3
      rw [memory_wf_cons]
      exact ⟨h4, hlt, hrest⟩
    · rw [memory_wf_cons]
      refine ⟨hw, ?_, ih hrest⟩
      intro p hp
      rcases memory_write_mem hp with hp | hp
      · exact hlt p hp
      · omega

/-- Read after write, the same entry. -/
theorem memory_read_write_same {m : Memory} (a : Nat) (v : Word256) (h : Memory.wf m = true) :
    Memory.read (Memory.write m a v) a = v := by
  induction m with
  | nil => simp only [Memory.write]; split <;> simp_all [Memory.read]
  | cons q rest ih =>
    obtain ⟨k, w⟩ := q
    have h' := h
    rw [memory_wf_cons] at h'
    obtain ⟨hw, hlt, hrest⟩ := h'
    simp only [Memory.write]
    split_ifs with h1 h2 h3 h4
    · rw [h2]
      apply memory_read_of_lt
      intro p hp
      rcases List.mem_cons.1 hp with rfl | hp
      · exact h1
      · exact lt_trans h1 (hlt p hp)
    · simp [Memory.read]
    · rw [h4]
      apply memory_read_of_lt
      intro p hp
      exact h3 ▸ hlt p hp
    · simp [Memory.read]
    · simp only [Memory.read, if_neg h3]
      exact ih hrest

/-- Read after write, another entry. -/
theorem memory_read_write_other (m : Memory) {a c : Nat} (v : Word256) (h : c ≠ a) :
    Memory.read (Memory.write m a v) c = Memory.read m c := by
  induction m with
  | nil => simp only [Memory.write]; split <;> simp_all [Memory.read]
  | cons q rest ih =>
    obtain ⟨k, w⟩ := q
    simp only [Memory.write]
    split_ifs with h1 h2 h3 h4
    · rfl
    · simp [Memory.read, h]
    · subst h3; simp [Memory.read, h]
    · subst h3; simp [Memory.read, h]
    · simp only [Memory.read]; rw [ih]

theorem memory_fill_wf {m : Memory} (g : Nat → Word256) (n : Nat) (h : Memory.wf m = true) :
    Memory.wf (Memory.fill m g n) = true := by
  induction n with
  | zero => exact h
  | succ n ih => exact memory_write_wf _ _ ih

theorem memory_fill_within {bound : Nat} {m : Memory} (g : Nat → Word256) {n : Nat}
    (h : Memory.within bound m = true) (hn : n ≤ bound) : Memory.within bound (Memory.fill m g n) = true := by
  induction n with
  | zero => exact h
  | succ n ih => exact memory_write_within _ (ih (by omega)) (by omega)

/-- What a filled store holds: g below n, the old entry from n on. -/
theorem memory_read_fill {m : Memory} (g : Nat → Word256) (n c : Nat) (h : Memory.wf m = true) :
    Memory.read (Memory.fill m g n) c = if c < n then g c else Memory.read m c := by
  induction n with
  | zero => simp [Memory.fill]
  | succ n ih =>
    simp only [Memory.fill]
    rcases eq_or_ne c n with rfl | hc
    · rw [memory_read_write_same _ _ (memory_fill_wf g c h)]; simp
    · rw [memory_read_write_other _ _ hc, ih]
      by_cases hlt : c < n
      · simp [hlt, Nat.lt_succ_of_lt hlt]
      · have : ¬ c < n + 1 := by omega
        simp [hlt, this]

/-- Canonical stores that read alike are equal. -/
theorem memory_ext {m m' : Memory} (h : Memory.wf m = true) (h' : Memory.wf m' = true)
    (hr : ∀ a, Memory.read m a = Memory.read m' a) : m = m' := by
  induction m generalizing m' with
  | nil =>
    cases m' with
    | nil => rfl
    | cons p rest =>
      obtain ⟨k, w⟩ := p
      have := hr k
      rw [memory_wf_cons] at h'
      simp only [memory_read_cons_self] at this
      exact absurd this.symm h'.1
  | cons p rest ih =>
    obtain ⟨k, w⟩ := p
    rw [memory_wf_cons] at h
    cases m' with
    | nil =>
      have := hr k
      simp only [memory_read_cons_self] at this
      exact absurd this h.1
    | cons p' rest' =>
      obtain ⟨k', w'⟩ := p'
      rw [memory_wf_cons] at h'
      have hk : k = k' := by
        rcases lt_trichotomy k k' with hlt | heq | hgt
        · have := hr k
          rw [memory_read_of_lt (m := (k', w') :: rest')] at this
          · simp only [memory_read_cons_self] at this; exact absurd this h.1
          · intro q hq
            rcases List.mem_cons.1 hq with rfl | hq
            · exact hlt
            · exact lt_trans hlt (h'.2.1 q hq)
        · exact heq
        · have := hr k'
          rw [memory_read_of_lt (m := (k, w) :: rest)] at this
          · simp only [memory_read_cons_self] at this; exact absurd this.symm h'.1
          · intro q hq
            rcases List.mem_cons.1 hq with rfl | hq
            · exact hgt
            · exact lt_trans hgt (h.2.1 q hq)
      subst hk
      have hw : w = w' := by
        have := hr k
        simpa only [memory_read_cons_self] using this
      subst hw
      rw [ih h.2.2 h'.2.2]
      intro a
      rcases eq_or_ne a k with rfl | ha
      · rw [memory_read_of_lt h.2.1, memory_read_of_lt h'.2.1]
      · have := hr a
        simpa only [Memory.read, if_neg ha] using this

end Sys2Proof.Machine
end

