-- ==== Sys2Proof/Laws/State.lean ====
section
/-! SUPPORT. One lemma per field per state update, true by rfl (for advance by its one lemma): what each named update of Sys2Proof/Machine leaves in each
field. No later proof unfolds a record update. -/

namespace Sys2Proof.Machine

variable (s : State) (v : Word32) (w : Word256) (r : RegIdx) (n t : Nat) (e : CmdError) (b : Vector Byte 32) (st : Stage)
  (rep : Reply) (ts : List Turn)

/-! ### setOverrun -/

@[simp] theorem setOverrun_params : (setOverrun s).params = s.params := rfl
@[simp] theorem setOverrun_f : (setOverrun s).f = s.f := rfl
@[simp] theorem setOverrun_sx : (setOverrun s).sx = s.sx := rfl
@[simp] theorem setOverrun_sy : (setOverrun s).sy = s.sy := rfl
@[simp] theorem setOverrun_coeffA : (setOverrun s).coeffA = s.coeffA := rfl
@[simp] theorem setOverrun_batchBuf : (setOverrun s).batchBuf = s.batchBuf := rfl
@[simp] theorem setOverrun_phase : (setOverrun s).phase = s.phase := rfl
@[simp] theorem setOverrun_cur : (setOverrun s).cur = s.cur := rfl
@[simp] theorem setOverrun_stage : (setOverrun s).stage = s.stage := rfl
@[simp] theorem setOverrun_loopIdx : (setOverrun s).loopIdx = s.loopIdx := rfl
@[simp] theorem setOverrun_ndraws : (setOverrun s).ndraws = s.ndraws := rfl
@[simp] theorem setOverrun_reply : (setOverrun s).reply = s.reply := rfl
@[simp] theorem setOverrun_ereq : (setOverrun s).ereq = s.ereq := rfl
@[simp] theorem setOverrun_done : (setOverrun s).done = s.done := rfl
@[simp] theorem setOverrun_err : (setOverrun s).err = s.err := rfl
@[simp] theorem setOverrun_overrun : (setOverrun s).overrun = true := rfl
@[simp] theorem setOverrun_fatal : (setOverrun s).fatal = s.fatal := rfl
@[simp] theorem setOverrun_errcode : (setOverrun s).errcode = s.errcode := rfl
@[simp] theorem setOverrun_doneIE : (setOverrun s).doneIE = s.doneIE := rfl
@[simp] theorem setOverrun_errIE : (setOverrun s).errIE = s.errIE := rfl
@[simp] theorem setOverrun_genT : (setOverrun s).genT = s.genT := rfl
@[simp] theorem setOverrun_genN : (setOverrun s).genN = s.genN := rfl
@[simp] theorem setOverrun_recBase : (setOverrun s).recBase = s.recBase := rfl
@[simp] theorem setOverrun_recCount : (setOverrun s).recCount = s.recCount := rfl
@[simp] theorem setOverrun_sidx : (setOverrun s).sidx = s.sidx := rfl
@[simp] theorem setOverrun_entropyCount : (setOverrun s).entropyCount = s.entropyCount := rfl
@[simp] theorem setOverrun_drawId : (setOverrun s).drawId = s.drawId := rfl
@[simp] theorem setOverrun_hostData : (setOverrun s).hostData = s.hostData := rfl
@[simp] theorem setOverrun_schedule : (setOverrun s).schedule = s.schedule := rfl
@[simp] theorem setOverrun_cycle : (setOverrun s).cycle = s.cycle := rfl
@[simp] theorem setOverrun_freeTurns : (setOverrun s).freeTurns = s.freeTurns := rfl

/-! ### writeStatus -/

@[simp] theorem writeStatus_params : (writeStatus v s).params = s.params := rfl
@[simp] theorem writeStatus_f : (writeStatus v s).f = s.f := rfl
@[simp] theorem writeStatus_sx : (writeStatus v s).sx = s.sx := rfl
@[simp] theorem writeStatus_sy : (writeStatus v s).sy = s.sy := rfl
@[simp] theorem writeStatus_coeffA : (writeStatus v s).coeffA = s.coeffA := rfl
@[simp] theorem writeStatus_batchBuf : (writeStatus v s).batchBuf = s.batchBuf := rfl
@[simp] theorem writeStatus_phase : (writeStatus v s).phase = s.phase := rfl
@[simp] theorem writeStatus_cur : (writeStatus v s).cur = s.cur := rfl
@[simp] theorem writeStatus_stage : (writeStatus v s).stage = s.stage := rfl
@[simp] theorem writeStatus_loopIdx : (writeStatus v s).loopIdx = s.loopIdx := rfl
@[simp] theorem writeStatus_ndraws : (writeStatus v s).ndraws = s.ndraws := rfl
@[simp] theorem writeStatus_reply : (writeStatus v s).reply = s.reply := rfl
@[simp] theorem writeStatus_ereq : (writeStatus v s).ereq = s.ereq := rfl
@[simp] theorem writeStatus_done : (writeStatus v s).done = (s.done && !v.getLsbD 1) := rfl
@[simp] theorem writeStatus_err : (writeStatus v s).err = (s.err && !v.getLsbD 2) := rfl
@[simp] theorem writeStatus_overrun : (writeStatus v s).overrun = (s.overrun && !v.getLsbD 3) := rfl
@[simp] theorem writeStatus_fatal : (writeStatus v s).fatal = s.fatal := rfl
@[simp] theorem writeStatus_errcode : (writeStatus v s).errcode = if v.getLsbD 2 then none else s.errcode := rfl
@[simp] theorem writeStatus_doneIE : (writeStatus v s).doneIE = s.doneIE := rfl
@[simp] theorem writeStatus_errIE : (writeStatus v s).errIE = s.errIE := rfl
@[simp] theorem writeStatus_genT : (writeStatus v s).genT = s.genT := rfl
@[simp] theorem writeStatus_genN : (writeStatus v s).genN = s.genN := rfl
@[simp] theorem writeStatus_recBase : (writeStatus v s).recBase = s.recBase := rfl
@[simp] theorem writeStatus_recCount : (writeStatus v s).recCount = s.recCount := rfl
@[simp] theorem writeStatus_sidx : (writeStatus v s).sidx = s.sidx := rfl
@[simp] theorem writeStatus_entropyCount : (writeStatus v s).entropyCount = s.entropyCount := rfl
@[simp] theorem writeStatus_drawId : (writeStatus v s).drawId = s.drawId := rfl
@[simp] theorem writeStatus_hostData : (writeStatus v s).hostData = s.hostData := rfl
@[simp] theorem writeStatus_schedule : (writeStatus v s).schedule = s.schedule := rfl
@[simp] theorem writeStatus_cycle : (writeStatus v s).cycle = s.cycle := rfl
@[simp] theorem writeStatus_freeTurns : (writeStatus v s).freeTurns = s.freeTurns := rfl

/-! ### writeIE -/

@[simp] theorem writeIE_params : (writeIE v s).params = s.params := rfl
@[simp] theorem writeIE_f : (writeIE v s).f = s.f := rfl
@[simp] theorem writeIE_sx : (writeIE v s).sx = s.sx := rfl
@[simp] theorem writeIE_sy : (writeIE v s).sy = s.sy := rfl
@[simp] theorem writeIE_coeffA : (writeIE v s).coeffA = s.coeffA := rfl
@[simp] theorem writeIE_batchBuf : (writeIE v s).batchBuf = s.batchBuf := rfl
@[simp] theorem writeIE_phase : (writeIE v s).phase = s.phase := rfl
@[simp] theorem writeIE_cur : (writeIE v s).cur = s.cur := rfl
@[simp] theorem writeIE_stage : (writeIE v s).stage = s.stage := rfl
@[simp] theorem writeIE_loopIdx : (writeIE v s).loopIdx = s.loopIdx := rfl
@[simp] theorem writeIE_ndraws : (writeIE v s).ndraws = s.ndraws := rfl
@[simp] theorem writeIE_reply : (writeIE v s).reply = s.reply := rfl
@[simp] theorem writeIE_ereq : (writeIE v s).ereq = s.ereq := rfl
@[simp] theorem writeIE_done : (writeIE v s).done = s.done := rfl
@[simp] theorem writeIE_err : (writeIE v s).err = s.err := rfl
@[simp] theorem writeIE_overrun : (writeIE v s).overrun = s.overrun := rfl
@[simp] theorem writeIE_fatal : (writeIE v s).fatal = s.fatal := rfl
@[simp] theorem writeIE_errcode : (writeIE v s).errcode = s.errcode := rfl
@[simp] theorem writeIE_doneIE : (writeIE v s).doneIE = v.getLsbD 0 := rfl
@[simp] theorem writeIE_errIE : (writeIE v s).errIE = v.getLsbD 1 := rfl
@[simp] theorem writeIE_genT : (writeIE v s).genT = s.genT := rfl
@[simp] theorem writeIE_genN : (writeIE v s).genN = s.genN := rfl
@[simp] theorem writeIE_recBase : (writeIE v s).recBase = s.recBase := rfl
@[simp] theorem writeIE_recCount : (writeIE v s).recCount = s.recCount := rfl
@[simp] theorem writeIE_sidx : (writeIE v s).sidx = s.sidx := rfl
@[simp] theorem writeIE_entropyCount : (writeIE v s).entropyCount = s.entropyCount := rfl
@[simp] theorem writeIE_drawId : (writeIE v s).drawId = s.drawId := rfl
@[simp] theorem writeIE_hostData : (writeIE v s).hostData = s.hostData := rfl
@[simp] theorem writeIE_schedule : (writeIE v s).schedule = s.schedule := rfl
@[simp] theorem writeIE_cycle : (writeIE v s).cycle = s.cycle := rfl
@[simp] theorem writeIE_freeTurns : (writeIE v s).freeTurns = s.freeTurns := rfl

/-! ### writeRaw -/

@[simp] theorem writeRaw_params : (writeRaw r w s).params = s.params := rfl
@[simp] theorem writeRaw_f : (writeRaw r w s).f = s.f.set r.val w := rfl
@[simp] theorem writeRaw_sx : (writeRaw r w s).sx = s.sx := rfl
@[simp] theorem writeRaw_sy : (writeRaw r w s).sy = s.sy := rfl
@[simp] theorem writeRaw_coeffA : (writeRaw r w s).coeffA = s.coeffA := rfl
@[simp] theorem writeRaw_batchBuf : (writeRaw r w s).batchBuf = s.batchBuf := rfl
@[simp] theorem writeRaw_phase : (writeRaw r w s).phase = s.phase := rfl
@[simp] theorem writeRaw_cur : (writeRaw r w s).cur = s.cur := rfl
@[simp] theorem writeRaw_stage : (writeRaw r w s).stage = s.stage := rfl
@[simp] theorem writeRaw_loopIdx : (writeRaw r w s).loopIdx = s.loopIdx := rfl
@[simp] theorem writeRaw_ndraws : (writeRaw r w s).ndraws = s.ndraws := rfl
@[simp] theorem writeRaw_reply : (writeRaw r w s).reply = s.reply := rfl
@[simp] theorem writeRaw_ereq : (writeRaw r w s).ereq = s.ereq := rfl
@[simp] theorem writeRaw_done : (writeRaw r w s).done = s.done := rfl
@[simp] theorem writeRaw_err : (writeRaw r w s).err = s.err := rfl
@[simp] theorem writeRaw_overrun : (writeRaw r w s).overrun = s.overrun := rfl
@[simp] theorem writeRaw_fatal : (writeRaw r w s).fatal = s.fatal := rfl
@[simp] theorem writeRaw_errcode : (writeRaw r w s).errcode = s.errcode := rfl
@[simp] theorem writeRaw_doneIE : (writeRaw r w s).doneIE = s.doneIE := rfl
@[simp] theorem writeRaw_errIE : (writeRaw r w s).errIE = s.errIE := rfl
@[simp] theorem writeRaw_genT : (writeRaw r w s).genT = s.genT := rfl
@[simp] theorem writeRaw_genN : (writeRaw r w s).genN = s.genN := rfl
@[simp] theorem writeRaw_recBase : (writeRaw r w s).recBase = s.recBase := rfl
@[simp] theorem writeRaw_recCount : (writeRaw r w s).recCount = s.recCount := rfl
@[simp] theorem writeRaw_sidx : (writeRaw r w s).sidx = s.sidx := rfl
@[simp] theorem writeRaw_entropyCount : (writeRaw r w s).entropyCount = s.entropyCount := rfl
@[simp] theorem writeRaw_drawId : (writeRaw r w s).drawId = s.drawId := rfl
@[simp] theorem writeRaw_hostData : (writeRaw r w s).hostData = s.hostData := rfl
@[simp] theorem writeRaw_schedule : (writeRaw r w s).schedule = s.schedule := rfl
@[simp] theorem writeRaw_cycle : (writeRaw r w s).cycle = s.cycle := rfl
@[simp] theorem writeRaw_freeTurns : (writeRaw r w s).freeTurns = s.freeTurns := rfl

/-! ### writeField -/

@[simp] theorem writeField_params : (writeField r n s).params = s.params := rfl
@[simp] theorem writeField_f : (writeField r n s).f = s.f.set r.val (BitVec.ofNat 256 n) := rfl
@[simp] theorem writeField_sx : (writeField r n s).sx = s.sx := rfl
@[simp] theorem writeField_sy : (writeField r n s).sy = s.sy := rfl
@[simp] theorem writeField_coeffA : (writeField r n s).coeffA = s.coeffA := rfl
@[simp] theorem writeField_batchBuf : (writeField r n s).batchBuf = s.batchBuf := rfl
@[simp] theorem writeField_phase : (writeField r n s).phase = s.phase := rfl
@[simp] theorem writeField_cur : (writeField r n s).cur = s.cur := rfl
@[simp] theorem writeField_stage : (writeField r n s).stage = s.stage := rfl
@[simp] theorem writeField_loopIdx : (writeField r n s).loopIdx = s.loopIdx := rfl
@[simp] theorem writeField_ndraws : (writeField r n s).ndraws = s.ndraws := rfl
@[simp] theorem writeField_reply : (writeField r n s).reply = s.reply := rfl
@[simp] theorem writeField_ereq : (writeField r n s).ereq = s.ereq := rfl
@[simp] theorem writeField_done : (writeField r n s).done = s.done := rfl
@[simp] theorem writeField_err : (writeField r n s).err = s.err := rfl
@[simp] theorem writeField_overrun : (writeField r n s).overrun = s.overrun := rfl
@[simp] theorem writeField_fatal : (writeField r n s).fatal = s.fatal := rfl
@[simp] theorem writeField_errcode : (writeField r n s).errcode = s.errcode := rfl
@[simp] theorem writeField_doneIE : (writeField r n s).doneIE = s.doneIE := rfl
@[simp] theorem writeField_errIE : (writeField r n s).errIE = s.errIE := rfl
@[simp] theorem writeField_genT : (writeField r n s).genT = s.genT := rfl
@[simp] theorem writeField_genN : (writeField r n s).genN = s.genN := rfl
@[simp] theorem writeField_recBase : (writeField r n s).recBase = s.recBase := rfl
@[simp] theorem writeField_recCount : (writeField r n s).recCount = s.recCount := rfl
@[simp] theorem writeField_sidx : (writeField r n s).sidx = s.sidx := rfl
@[simp] theorem writeField_entropyCount : (writeField r n s).entropyCount = s.entropyCount := rfl
@[simp] theorem writeField_drawId : (writeField r n s).drawId = s.drawId := rfl
@[simp] theorem writeField_hostData : (writeField r n s).hostData = s.hostData := rfl
@[simp] theorem writeField_schedule : (writeField r n s).schedule = s.schedule := rfl
@[simp] theorem writeField_cycle : (writeField r n s).cycle = s.cycle := rfl
@[simp] theorem writeField_freeTurns : (writeField r n s).freeTurns = s.freeTurns := rfl

/-! ### acceptCommand -/

@[simp] theorem acceptCommand_params : (acceptCommand v s).params = s.params := rfl
@[simp] theorem acceptCommand_f : (acceptCommand v s).f = s.f := rfl
@[simp] theorem acceptCommand_sx : (acceptCommand v s).sx = s.sx := rfl
@[simp] theorem acceptCommand_sy : (acceptCommand v s).sy = s.sy := rfl
@[simp] theorem acceptCommand_coeffA : (acceptCommand v s).coeffA = s.coeffA := rfl
@[simp] theorem acceptCommand_batchBuf : (acceptCommand v s).batchBuf = s.batchBuf := rfl
@[simp] theorem acceptCommand_phase : (acceptCommand v s).phase = .exec := rfl
@[simp] theorem acceptCommand_cur : (acceptCommand v s).cur = v := rfl
@[simp] theorem acceptCommand_stage : (acceptCommand v s).stage = .start := rfl
@[simp] theorem acceptCommand_loopIdx : (acceptCommand v s).loopIdx = 0 := rfl
@[simp] theorem acceptCommand_ndraws : (acceptCommand v s).ndraws = 0 := rfl
@[simp] theorem acceptCommand_reply : (acceptCommand v s).reply = none := rfl
@[simp] theorem acceptCommand_ereq : (acceptCommand v s).ereq = s.ereq := rfl
@[simp] theorem acceptCommand_done : (acceptCommand v s).done = false := rfl
@[simp] theorem acceptCommand_err : (acceptCommand v s).err = false := rfl
@[simp] theorem acceptCommand_overrun : (acceptCommand v s).overrun = s.overrun := rfl
@[simp] theorem acceptCommand_fatal : (acceptCommand v s).fatal = s.fatal := rfl
@[simp] theorem acceptCommand_errcode : (acceptCommand v s).errcode = none := rfl
@[simp] theorem acceptCommand_doneIE : (acceptCommand v s).doneIE = s.doneIE := rfl
@[simp] theorem acceptCommand_errIE : (acceptCommand v s).errIE = s.errIE := rfl
@[simp] theorem acceptCommand_genT : (acceptCommand v s).genT = s.genT := rfl
@[simp] theorem acceptCommand_genN : (acceptCommand v s).genN = s.genN := rfl
@[simp] theorem acceptCommand_recBase : (acceptCommand v s).recBase = s.recBase := rfl
@[simp] theorem acceptCommand_recCount : (acceptCommand v s).recCount = s.recCount := rfl
@[simp] theorem acceptCommand_sidx : (acceptCommand v s).sidx = s.sidx := rfl
@[simp] theorem acceptCommand_entropyCount : (acceptCommand v s).entropyCount = s.entropyCount := rfl
@[simp] theorem acceptCommand_drawId : (acceptCommand v s).drawId = s.drawId := rfl
@[simp] theorem acceptCommand_hostData : (acceptCommand v s).hostData = s.hostData := rfl
@[simp] theorem acceptCommand_schedule : (acceptCommand v s).schedule = s.schedule := rfl
@[simp] theorem acceptCommand_cycle : (acceptCommand v s).cycle = s.cycle := rfl
@[simp] theorem acceptCommand_freeTurns : (acceptCommand v s).freeTurns = s.freeTurns := rfl

/-! ### complete -/

@[simp] theorem complete_params : (complete s).params = s.params := rfl
@[simp] theorem complete_f : (complete s).f = s.f := rfl
@[simp] theorem complete_sx : (complete s).sx = s.sx := rfl
@[simp] theorem complete_sy : (complete s).sy = s.sy := rfl
@[simp] theorem complete_coeffA : (complete s).coeffA = [] := rfl
@[simp] theorem complete_batchBuf : (complete s).batchBuf = [] := rfl
@[simp] theorem complete_phase : (complete s).phase = .idle := rfl
@[simp] theorem complete_cur : (complete s).cur = s.cur := rfl
@[simp] theorem complete_stage : (complete s).stage = .start := rfl
@[simp] theorem complete_loopIdx : (complete s).loopIdx = 0 := rfl
@[simp] theorem complete_ndraws : (complete s).ndraws = 0 := rfl
@[simp] theorem complete_reply : (complete s).reply = none := rfl
@[simp] theorem complete_ereq : (complete s).ereq = s.ereq := rfl
@[simp] theorem complete_done : (complete s).done = true := rfl
@[simp] theorem complete_err : (complete s).err = s.err := rfl
@[simp] theorem complete_overrun : (complete s).overrun = s.overrun := rfl
@[simp] theorem complete_fatal : (complete s).fatal = s.fatal := rfl
@[simp] theorem complete_errcode : (complete s).errcode = s.errcode := rfl
@[simp] theorem complete_doneIE : (complete s).doneIE = s.doneIE := rfl
@[simp] theorem complete_errIE : (complete s).errIE = s.errIE := rfl
@[simp] theorem complete_genT : (complete s).genT = s.genT := rfl
@[simp] theorem complete_genN : (complete s).genN = s.genN := rfl
@[simp] theorem complete_recBase : (complete s).recBase = s.recBase := rfl
@[simp] theorem complete_recCount : (complete s).recCount = s.recCount := rfl
@[simp] theorem complete_sidx : (complete s).sidx = s.sidx := rfl
@[simp] theorem complete_entropyCount : (complete s).entropyCount = s.entropyCount + BitVec.ofNat 32 s.ndraws := rfl
@[simp] theorem complete_drawId : (complete s).drawId = s.drawId := rfl
@[simp] theorem complete_hostData : (complete s).hostData = s.hostData := rfl
@[simp] theorem complete_schedule : (complete s).schedule = s.schedule := rfl
@[simp] theorem complete_cycle : (complete s).cycle = s.cycle := rfl
@[simp] theorem complete_freeTurns : (complete s).freeTurns = s.freeTurns := rfl

/-! ### abortState -/

@[simp] theorem abortState_params : (abortState e s).params = s.params := rfl
@[simp] theorem abortState_f : (abortState e s).f = s.f := rfl
@[simp] theorem abortState_sx : (abortState e s).sx = s.sx := rfl
@[simp] theorem abortState_sy : (abortState e s).sy = s.sy := rfl
@[simp] theorem abortState_coeffA : (abortState e s).coeffA = [] := rfl
@[simp] theorem abortState_batchBuf : (abortState e s).batchBuf = [] := rfl
@[simp] theorem abortState_phase : (abortState e s).phase = .idle := rfl
@[simp] theorem abortState_cur : (abortState e s).cur = s.cur := rfl
@[simp] theorem abortState_stage : (abortState e s).stage = .start := rfl
@[simp] theorem abortState_loopIdx : (abortState e s).loopIdx = 0 := rfl
@[simp] theorem abortState_ndraws : (abortState e s).ndraws = 0 := rfl
@[simp] theorem abortState_reply : (abortState e s).reply = none := rfl
@[simp] theorem abortState_ereq : (abortState e s).ereq = s.ereq := rfl
@[simp] theorem abortState_done : (abortState e s).done = true := rfl
@[simp] theorem abortState_err : (abortState e s).err = true := rfl
@[simp] theorem abortState_overrun : (abortState e s).overrun = s.overrun := rfl
@[simp] theorem abortState_fatal : (abortState e s).fatal = (s.fatal || e == .internalFault) := rfl
@[simp] theorem abortState_errcode : (abortState e s).errcode = some e := rfl
@[simp] theorem abortState_doneIE : (abortState e s).doneIE = s.doneIE := rfl
@[simp] theorem abortState_errIE : (abortState e s).errIE = s.errIE := rfl
@[simp] theorem abortState_genT : (abortState e s).genT = s.genT := rfl
@[simp] theorem abortState_genN : (abortState e s).genN = s.genN := rfl
@[simp] theorem abortState_recBase : (abortState e s).recBase = s.recBase := rfl
@[simp] theorem abortState_recCount : (abortState e s).recCount = s.recCount := rfl
@[simp] theorem abortState_sidx : (abortState e s).sidx = s.sidx := rfl
@[simp] theorem abortState_entropyCount : (abortState e s).entropyCount =
    s.entropyCount + BitVec.ofNat 32 s.ndraws := rfl
@[simp] theorem abortState_drawId : (abortState e s).drawId = s.drawId := rfl
@[simp] theorem abortState_hostData : (abortState e s).hostData = s.hostData := rfl
@[simp] theorem abortState_schedule : (abortState e s).schedule = s.schedule := rfl
@[simp] theorem abortState_cycle : (abortState e s).cycle = s.cycle := rfl
@[simp] theorem abortState_freeTurns : (abortState e s).freeTurns = s.freeTurns := rfl

/-! ### requestDraw -/

@[simp] theorem requestDraw_params : (requestDraw s).params = s.params := rfl
@[simp] theorem requestDraw_f : (requestDraw s).f = s.f := rfl
@[simp] theorem requestDraw_sx : (requestDraw s).sx = s.sx := rfl
@[simp] theorem requestDraw_sy : (requestDraw s).sy = s.sy := rfl
@[simp] theorem requestDraw_coeffA : (requestDraw s).coeffA = s.coeffA := rfl
@[simp] theorem requestDraw_batchBuf : (requestDraw s).batchBuf = s.batchBuf := rfl
@[simp] theorem requestDraw_phase : (requestDraw s).phase = s.phase := rfl
@[simp] theorem requestDraw_cur : (requestDraw s).cur = s.cur := rfl
@[simp] theorem requestDraw_stage : (requestDraw s).stage = s.stage := rfl
@[simp] theorem requestDraw_loopIdx : (requestDraw s).loopIdx = s.loopIdx := rfl
@[simp] theorem requestDraw_ndraws : (requestDraw s).ndraws = s.ndraws := rfl
@[simp] theorem requestDraw_reply : (requestDraw s).reply = none := rfl
@[simp] theorem requestDraw_ereq : (requestDraw s).ereq = .pending := rfl
@[simp] theorem requestDraw_done : (requestDraw s).done = s.done := rfl
@[simp] theorem requestDraw_err : (requestDraw s).err = s.err := rfl
@[simp] theorem requestDraw_overrun : (requestDraw s).overrun = s.overrun := rfl
@[simp] theorem requestDraw_fatal : (requestDraw s).fatal = s.fatal := rfl
@[simp] theorem requestDraw_errcode : (requestDraw s).errcode = s.errcode := rfl
@[simp] theorem requestDraw_doneIE : (requestDraw s).doneIE = s.doneIE := rfl
@[simp] theorem requestDraw_errIE : (requestDraw s).errIE = s.errIE := rfl
@[simp] theorem requestDraw_genT : (requestDraw s).genT = s.genT := rfl
@[simp] theorem requestDraw_genN : (requestDraw s).genN = s.genN := rfl
@[simp] theorem requestDraw_recBase : (requestDraw s).recBase = s.recBase := rfl
@[simp] theorem requestDraw_recCount : (requestDraw s).recCount = s.recCount := rfl
@[simp] theorem requestDraw_sidx : (requestDraw s).sidx = s.sidx := rfl
@[simp] theorem requestDraw_entropyCount : (requestDraw s).entropyCount = s.entropyCount := rfl
@[simp] theorem requestDraw_drawId : (requestDraw s).drawId = s.drawId + 1 := rfl
@[simp] theorem requestDraw_hostData : (requestDraw s).hostData = s.hostData := rfl
@[simp] theorem requestDraw_schedule : (requestDraw s).schedule = s.schedule := rfl
@[simp] theorem requestDraw_cycle : (requestDraw s).cycle = s.cycle := rfl
@[simp] theorem requestDraw_freeTurns : (requestDraw s).freeTurns = s.freeTurns := rfl

/-! ### useReply -/

@[simp] theorem useReply_params : (useReply s).params = s.params := rfl
@[simp] theorem useReply_f : (useReply s).f = s.f := rfl
@[simp] theorem useReply_sx : (useReply s).sx = s.sx := rfl
@[simp] theorem useReply_sy : (useReply s).sy = s.sy := rfl
@[simp] theorem useReply_coeffA : (useReply s).coeffA = s.coeffA := rfl
@[simp] theorem useReply_batchBuf : (useReply s).batchBuf = s.batchBuf := rfl
@[simp] theorem useReply_phase : (useReply s).phase = s.phase := rfl
@[simp] theorem useReply_cur : (useReply s).cur = s.cur := rfl
@[simp] theorem useReply_stage : (useReply s).stage = s.stage := rfl
@[simp] theorem useReply_loopIdx : (useReply s).loopIdx = s.loopIdx := rfl
@[simp] theorem useReply_ndraws : (useReply s).ndraws = s.ndraws + 1 := rfl
@[simp] theorem useReply_reply : (useReply s).reply = none := rfl
@[simp] theorem useReply_ereq : (useReply s).ereq = s.ereq := rfl
@[simp] theorem useReply_done : (useReply s).done = s.done := rfl
@[simp] theorem useReply_err : (useReply s).err = s.err := rfl
@[simp] theorem useReply_overrun : (useReply s).overrun = s.overrun := rfl
@[simp] theorem useReply_fatal : (useReply s).fatal = s.fatal := rfl
@[simp] theorem useReply_errcode : (useReply s).errcode = s.errcode := rfl
@[simp] theorem useReply_doneIE : (useReply s).doneIE = s.doneIE := rfl
@[simp] theorem useReply_errIE : (useReply s).errIE = s.errIE := rfl
@[simp] theorem useReply_genT : (useReply s).genT = s.genT := rfl
@[simp] theorem useReply_genN : (useReply s).genN = s.genN := rfl
@[simp] theorem useReply_recBase : (useReply s).recBase = s.recBase := rfl
@[simp] theorem useReply_recCount : (useReply s).recCount = s.recCount := rfl
@[simp] theorem useReply_sidx : (useReply s).sidx = s.sidx := rfl
@[simp] theorem useReply_entropyCount : (useReply s).entropyCount = s.entropyCount := rfl
@[simp] theorem useReply_drawId : (useReply s).drawId = s.drawId := rfl
@[simp] theorem useReply_hostData : (useReply s).hostData = s.hostData := rfl
@[simp] theorem useReply_schedule : (useReply s).schedule = s.schedule := rfl
@[simp] theorem useReply_cycle : (useReply s).cycle = s.cycle := rfl
@[simp] theorem useReply_freeTurns : (useReply s).freeTurns = s.freeTurns := rfl

/-! ### softReset -/

@[simp] theorem softReset_params : (softReset s).params = s.params := rfl
@[simp] theorem softReset_f : (softReset s).f = Vector.replicate 16 0 := rfl
@[simp] theorem softReset_sx : (softReset s).sx = [] := rfl
@[simp] theorem softReset_sy : (softReset s).sy = [] := rfl
@[simp] theorem softReset_coeffA : (softReset s).coeffA = [] := rfl
@[simp] theorem softReset_batchBuf : (softReset s).batchBuf = [] := rfl
@[simp] theorem softReset_phase : (softReset s).phase = .idle := rfl
@[simp] theorem softReset_cur : (softReset s).cur = 0 := rfl
@[simp] theorem softReset_stage : (softReset s).stage = .start := rfl
@[simp] theorem softReset_loopIdx : (softReset s).loopIdx = 0 := rfl
@[simp] theorem softReset_ndraws : (softReset s).ndraws = 0 := rfl
@[simp] theorem softReset_reply : (softReset s).reply = none := rfl
@[simp] theorem softReset_ereq : (softReset s).ereq = .none := rfl
@[simp] theorem softReset_done : (softReset s).done = false := rfl
@[simp] theorem softReset_err : (softReset s).err = false := rfl
@[simp] theorem softReset_overrun : (softReset s).overrun = false := rfl
@[simp] theorem softReset_fatal : (softReset s).fatal = false := rfl
@[simp] theorem softReset_errcode : (softReset s).errcode = none := rfl
@[simp] theorem softReset_doneIE : (softReset s).doneIE = false := rfl
@[simp] theorem softReset_errIE : (softReset s).errIE = false := rfl
@[simp] theorem softReset_genT : (softReset s).genT = 0 := rfl
@[simp] theorem softReset_genN : (softReset s).genN = 0 := rfl
@[simp] theorem softReset_recBase : (softReset s).recBase = 0 := rfl
@[simp] theorem softReset_recCount : (softReset s).recCount = 0 := rfl
@[simp] theorem softReset_sidx : (softReset s).sidx = 0 := rfl
@[simp] theorem softReset_entropyCount : (softReset s).entropyCount = 0 := rfl
@[simp] theorem softReset_drawId : (softReset s).drawId = s.drawId := rfl
@[simp] theorem softReset_hostData : (softReset s).hostData = s.hostData := rfl
@[simp] theorem softReset_schedule : (softReset s).schedule = s.schedule := rfl
@[simp] theorem softReset_cycle : (softReset s).cycle = s.cycle := rfl
@[simp] theorem softReset_freeTurns : (softReset s).freeTurns = s.freeTurns := rfl

/-! ### storeSample -/

@[simp] theorem storeSample_params : (storeSample b s).params = s.params := rfl
@[simp] theorem storeSample_f : (storeSample b s).f = s.f := rfl
@[simp] theorem storeSample_sx : (storeSample b s).sx = s.sx := rfl
@[simp] theorem storeSample_sy : (storeSample b s).sy = s.sy := rfl
@[simp] theorem storeSample_coeffA : (storeSample b s).coeffA = s.coeffA := rfl
@[simp] theorem storeSample_batchBuf : (storeSample b s).batchBuf =
    Memory.write s.batchBuf s.loopIdx (BitVec.ofNat 256 (sample b)) := rfl
@[simp] theorem storeSample_phase : (storeSample b s).phase = s.phase := rfl
@[simp] theorem storeSample_cur : (storeSample b s).cur = s.cur := rfl
@[simp] theorem storeSample_stage : (storeSample b s).stage = s.stage := rfl
@[simp] theorem storeSample_loopIdx : (storeSample b s).loopIdx = s.loopIdx := rfl
@[simp] theorem storeSample_ndraws : (storeSample b s).ndraws = s.ndraws + 1 := rfl
@[simp] theorem storeSample_reply : (storeSample b s).reply = none := rfl
@[simp] theorem storeSample_ereq : (storeSample b s).ereq = s.ereq := rfl
@[simp] theorem storeSample_done : (storeSample b s).done = s.done := rfl
@[simp] theorem storeSample_err : (storeSample b s).err = s.err := rfl
@[simp] theorem storeSample_overrun : (storeSample b s).overrun = s.overrun := rfl
@[simp] theorem storeSample_fatal : (storeSample b s).fatal = s.fatal := rfl
@[simp] theorem storeSample_errcode : (storeSample b s).errcode = s.errcode := rfl
@[simp] theorem storeSample_doneIE : (storeSample b s).doneIE = s.doneIE := rfl
@[simp] theorem storeSample_errIE : (storeSample b s).errIE = s.errIE := rfl
@[simp] theorem storeSample_genT : (storeSample b s).genT = s.genT := rfl
@[simp] theorem storeSample_genN : (storeSample b s).genN = s.genN := rfl
@[simp] theorem storeSample_recBase : (storeSample b s).recBase = s.recBase := rfl
@[simp] theorem storeSample_recCount : (storeSample b s).recCount = s.recCount := rfl
@[simp] theorem storeSample_sidx : (storeSample b s).sidx = s.sidx := rfl
@[simp] theorem storeSample_entropyCount : (storeSample b s).entropyCount = s.entropyCount := rfl
@[simp] theorem storeSample_drawId : (storeSample b s).drawId = s.drawId := rfl
@[simp] theorem storeSample_hostData : (storeSample b s).hostData = s.hostData := rfl
@[simp] theorem storeSample_schedule : (storeSample b s).schedule = s.schedule := rfl
@[simp] theorem storeSample_cycle : (storeSample b s).cycle = s.cycle := rfl
@[simp] theorem storeSample_freeTurns : (storeSample b s).freeTurns = s.freeTurns := rfl

/-! ### setIndex -/

@[simp] theorem setIndex_params : (setIndex n s).params = s.params := rfl
@[simp] theorem setIndex_f : (setIndex n s).f = s.f := rfl
@[simp] theorem setIndex_sx : (setIndex n s).sx = s.sx := rfl
@[simp] theorem setIndex_sy : (setIndex n s).sy = s.sy := rfl
@[simp] theorem setIndex_coeffA : (setIndex n s).coeffA = s.coeffA := rfl
@[simp] theorem setIndex_batchBuf : (setIndex n s).batchBuf = s.batchBuf := rfl
@[simp] theorem setIndex_phase : (setIndex n s).phase = s.phase := rfl
@[simp] theorem setIndex_cur : (setIndex n s).cur = s.cur := rfl
@[simp] theorem setIndex_stage : (setIndex n s).stage = s.stage := rfl
@[simp] theorem setIndex_loopIdx : (setIndex n s).loopIdx = n := rfl
@[simp] theorem setIndex_ndraws : (setIndex n s).ndraws = s.ndraws := rfl
@[simp] theorem setIndex_reply : (setIndex n s).reply = s.reply := rfl
@[simp] theorem setIndex_ereq : (setIndex n s).ereq = s.ereq := rfl
@[simp] theorem setIndex_done : (setIndex n s).done = s.done := rfl
@[simp] theorem setIndex_err : (setIndex n s).err = s.err := rfl
@[simp] theorem setIndex_overrun : (setIndex n s).overrun = s.overrun := rfl
@[simp] theorem setIndex_fatal : (setIndex n s).fatal = s.fatal := rfl
@[simp] theorem setIndex_errcode : (setIndex n s).errcode = s.errcode := rfl
@[simp] theorem setIndex_doneIE : (setIndex n s).doneIE = s.doneIE := rfl
@[simp] theorem setIndex_errIE : (setIndex n s).errIE = s.errIE := rfl
@[simp] theorem setIndex_genT : (setIndex n s).genT = s.genT := rfl
@[simp] theorem setIndex_genN : (setIndex n s).genN = s.genN := rfl
@[simp] theorem setIndex_recBase : (setIndex n s).recBase = s.recBase := rfl
@[simp] theorem setIndex_recCount : (setIndex n s).recCount = s.recCount := rfl
@[simp] theorem setIndex_sidx : (setIndex n s).sidx = s.sidx := rfl
@[simp] theorem setIndex_entropyCount : (setIndex n s).entropyCount = s.entropyCount := rfl
@[simp] theorem setIndex_drawId : (setIndex n s).drawId = s.drawId := rfl
@[simp] theorem setIndex_hostData : (setIndex n s).hostData = s.hostData := rfl
@[simp] theorem setIndex_schedule : (setIndex n s).schedule = s.schedule := rfl
@[simp] theorem setIndex_cycle : (setIndex n s).cycle = s.cycle := rfl
@[simp] theorem setIndex_freeTurns : (setIndex n s).freeTurns = s.freeTurns := rfl

/-! ### loadSecret -/

@[simp] theorem loadSecret_params : (loadSecret w s).params = s.params := rfl
@[simp] theorem loadSecret_f : (loadSecret w s).f = s.f := rfl
@[simp] theorem loadSecret_sx : (loadSecret w s).sx = s.sx := rfl
@[simp] theorem loadSecret_sy : (loadSecret w s).sy = s.sy := rfl
@[simp] theorem loadSecret_coeffA : (loadSecret w s).coeffA = Memory.write s.coeffA 0 w := rfl
@[simp] theorem loadSecret_batchBuf : (loadSecret w s).batchBuf = s.batchBuf := rfl
@[simp] theorem loadSecret_phase : (loadSecret w s).phase = s.phase := rfl
@[simp] theorem loadSecret_cur : (loadSecret w s).cur = s.cur := rfl
@[simp] theorem loadSecret_stage : (loadSecret w s).stage = s.stage := rfl
@[simp] theorem loadSecret_loopIdx : (loadSecret w s).loopIdx = s.loopIdx := rfl
@[simp] theorem loadSecret_ndraws : (loadSecret w s).ndraws = s.ndraws := rfl
@[simp] theorem loadSecret_reply : (loadSecret w s).reply = s.reply := rfl
@[simp] theorem loadSecret_ereq : (loadSecret w s).ereq = s.ereq := rfl
@[simp] theorem loadSecret_done : (loadSecret w s).done = s.done := rfl
@[simp] theorem loadSecret_err : (loadSecret w s).err = s.err := rfl
@[simp] theorem loadSecret_overrun : (loadSecret w s).overrun = s.overrun := rfl
@[simp] theorem loadSecret_fatal : (loadSecret w s).fatal = s.fatal := rfl
@[simp] theorem loadSecret_errcode : (loadSecret w s).errcode = s.errcode := rfl
@[simp] theorem loadSecret_doneIE : (loadSecret w s).doneIE = s.doneIE := rfl
@[simp] theorem loadSecret_errIE : (loadSecret w s).errIE = s.errIE := rfl
@[simp] theorem loadSecret_genT : (loadSecret w s).genT = s.genT := rfl
@[simp] theorem loadSecret_genN : (loadSecret w s).genN = s.genN := rfl
@[simp] theorem loadSecret_recBase : (loadSecret w s).recBase = s.recBase := rfl
@[simp] theorem loadSecret_recCount : (loadSecret w s).recCount = s.recCount := rfl
@[simp] theorem loadSecret_sidx : (loadSecret w s).sidx = s.sidx := rfl
@[simp] theorem loadSecret_entropyCount : (loadSecret w s).entropyCount = s.entropyCount := rfl
@[simp] theorem loadSecret_drawId : (loadSecret w s).drawId = s.drawId := rfl
@[simp] theorem loadSecret_hostData : (loadSecret w s).hostData = s.hostData := rfl
@[simp] theorem loadSecret_schedule : (loadSecret w s).schedule = s.schedule := rfl
@[simp] theorem loadSecret_cycle : (loadSecret w s).cycle = s.cycle := rfl
@[simp] theorem loadSecret_freeTurns : (loadSecret w s).freeTurns = s.freeTurns := rfl

/-! ### deliver -/

@[simp] theorem deliver_params : (deliver rep s).params = s.params := rfl
@[simp] theorem deliver_f : (deliver rep s).f = s.f := rfl
@[simp] theorem deliver_sx : (deliver rep s).sx = s.sx := rfl
@[simp] theorem deliver_sy : (deliver rep s).sy = s.sy := rfl
@[simp] theorem deliver_coeffA : (deliver rep s).coeffA = s.coeffA := rfl
@[simp] theorem deliver_batchBuf : (deliver rep s).batchBuf = s.batchBuf := rfl
@[simp] theorem deliver_phase : (deliver rep s).phase = s.phase := rfl
@[simp] theorem deliver_cur : (deliver rep s).cur = s.cur := rfl
@[simp] theorem deliver_stage : (deliver rep s).stage = s.stage := rfl
@[simp] theorem deliver_loopIdx : (deliver rep s).loopIdx = s.loopIdx := rfl
@[simp] theorem deliver_ndraws : (deliver rep s).ndraws = s.ndraws := rfl
@[simp] theorem deliver_reply : (deliver rep s).reply = some rep := rfl
@[simp] theorem deliver_ereq : (deliver rep s).ereq = .none := rfl
@[simp] theorem deliver_done : (deliver rep s).done = s.done := rfl
@[simp] theorem deliver_err : (deliver rep s).err = s.err := rfl
@[simp] theorem deliver_overrun : (deliver rep s).overrun = s.overrun := rfl
@[simp] theorem deliver_fatal : (deliver rep s).fatal = s.fatal := rfl
@[simp] theorem deliver_errcode : (deliver rep s).errcode = s.errcode := rfl
@[simp] theorem deliver_doneIE : (deliver rep s).doneIE = s.doneIE := rfl
@[simp] theorem deliver_errIE : (deliver rep s).errIE = s.errIE := rfl
@[simp] theorem deliver_genT : (deliver rep s).genT = s.genT := rfl
@[simp] theorem deliver_genN : (deliver rep s).genN = s.genN := rfl
@[simp] theorem deliver_recBase : (deliver rep s).recBase = s.recBase := rfl
@[simp] theorem deliver_recCount : (deliver rep s).recCount = s.recCount := rfl
@[simp] theorem deliver_sidx : (deliver rep s).sidx = s.sidx := rfl
@[simp] theorem deliver_entropyCount : (deliver rep s).entropyCount = s.entropyCount := rfl
@[simp] theorem deliver_drawId : (deliver rep s).drawId = s.drawId := rfl
@[simp] theorem deliver_hostData : (deliver rep s).hostData = s.hostData := rfl
@[simp] theorem deliver_schedule : (deliver rep s).schedule = s.schedule := rfl
@[simp] theorem deliver_cycle : (deliver rep s).cycle = s.cycle := rfl
@[simp] theorem deliver_freeTurns : (deliver rep s).freeTurns = s.freeTurns := rfl

/-! ### toHost -/

@[simp] theorem toHost_params : (toHost v s).params = s.params := rfl
@[simp] theorem toHost_f : (toHost v s).f = s.f := rfl
@[simp] theorem toHost_sx : (toHost v s).sx = s.sx := rfl
@[simp] theorem toHost_sy : (toHost v s).sy = s.sy := rfl
@[simp] theorem toHost_coeffA : (toHost v s).coeffA = s.coeffA := rfl
@[simp] theorem toHost_batchBuf : (toHost v s).batchBuf = s.batchBuf := rfl
@[simp] theorem toHost_phase : (toHost v s).phase = s.phase := rfl
@[simp] theorem toHost_cur : (toHost v s).cur = s.cur := rfl
@[simp] theorem toHost_stage : (toHost v s).stage = s.stage := rfl
@[simp] theorem toHost_loopIdx : (toHost v s).loopIdx = s.loopIdx := rfl
@[simp] theorem toHost_ndraws : (toHost v s).ndraws = s.ndraws := rfl
@[simp] theorem toHost_reply : (toHost v s).reply = s.reply := rfl
@[simp] theorem toHost_ereq : (toHost v s).ereq = s.ereq := rfl
@[simp] theorem toHost_done : (toHost v s).done = s.done := rfl
@[simp] theorem toHost_err : (toHost v s).err = s.err := rfl
@[simp] theorem toHost_overrun : (toHost v s).overrun = s.overrun := rfl
@[simp] theorem toHost_fatal : (toHost v s).fatal = s.fatal := rfl
@[simp] theorem toHost_errcode : (toHost v s).errcode = s.errcode := rfl
@[simp] theorem toHost_doneIE : (toHost v s).doneIE = s.doneIE := rfl
@[simp] theorem toHost_errIE : (toHost v s).errIE = s.errIE := rfl
@[simp] theorem toHost_genT : (toHost v s).genT = s.genT := rfl
@[simp] theorem toHost_genN : (toHost v s).genN = s.genN := rfl
@[simp] theorem toHost_recBase : (toHost v s).recBase = s.recBase := rfl
@[simp] theorem toHost_recCount : (toHost v s).recCount = s.recCount := rfl
@[simp] theorem toHost_sidx : (toHost v s).sidx = s.sidx := rfl
@[simp] theorem toHost_entropyCount : (toHost v s).entropyCount = s.entropyCount := rfl
@[simp] theorem toHost_drawId : (toHost v s).drawId = s.drawId := rfl
@[simp] theorem toHost_hostData : (toHost v s).hostData = v := rfl
@[simp] theorem toHost_schedule : (toHost v s).schedule = s.schedule := rfl
@[simp] theorem toHost_cycle : (toHost v s).cycle = s.cycle := rfl
@[simp] theorem toHost_freeTurns : (toHost v s).freeTurns = s.freeTurns := rfl

/-! ### setSchedule -/

@[simp] theorem setSchedule_params : (setSchedule ts s).params = s.params := rfl
@[simp] theorem setSchedule_f : (setSchedule ts s).f = s.f := rfl
@[simp] theorem setSchedule_sx : (setSchedule ts s).sx = s.sx := rfl
@[simp] theorem setSchedule_sy : (setSchedule ts s).sy = s.sy := rfl
@[simp] theorem setSchedule_coeffA : (setSchedule ts s).coeffA = s.coeffA := rfl
@[simp] theorem setSchedule_batchBuf : (setSchedule ts s).batchBuf = s.batchBuf := rfl
@[simp] theorem setSchedule_phase : (setSchedule ts s).phase = s.phase := rfl
@[simp] theorem setSchedule_cur : (setSchedule ts s).cur = s.cur := rfl
@[simp] theorem setSchedule_stage : (setSchedule ts s).stage = s.stage := rfl
@[simp] theorem setSchedule_loopIdx : (setSchedule ts s).loopIdx = s.loopIdx := rfl
@[simp] theorem setSchedule_ndraws : (setSchedule ts s).ndraws = s.ndraws := rfl
@[simp] theorem setSchedule_reply : (setSchedule ts s).reply = s.reply := rfl
@[simp] theorem setSchedule_ereq : (setSchedule ts s).ereq = s.ereq := rfl
@[simp] theorem setSchedule_done : (setSchedule ts s).done = s.done := rfl
@[simp] theorem setSchedule_err : (setSchedule ts s).err = s.err := rfl
@[simp] theorem setSchedule_overrun : (setSchedule ts s).overrun = s.overrun := rfl
@[simp] theorem setSchedule_fatal : (setSchedule ts s).fatal = s.fatal := rfl
@[simp] theorem setSchedule_errcode : (setSchedule ts s).errcode = s.errcode := rfl
@[simp] theorem setSchedule_doneIE : (setSchedule ts s).doneIE = s.doneIE := rfl
@[simp] theorem setSchedule_errIE : (setSchedule ts s).errIE = s.errIE := rfl
@[simp] theorem setSchedule_genT : (setSchedule ts s).genT = s.genT := rfl
@[simp] theorem setSchedule_genN : (setSchedule ts s).genN = s.genN := rfl
@[simp] theorem setSchedule_recBase : (setSchedule ts s).recBase = s.recBase := rfl
@[simp] theorem setSchedule_recCount : (setSchedule ts s).recCount = s.recCount := rfl
@[simp] theorem setSchedule_sidx : (setSchedule ts s).sidx = s.sidx := rfl
@[simp] theorem setSchedule_entropyCount : (setSchedule ts s).entropyCount = s.entropyCount := rfl
@[simp] theorem setSchedule_drawId : (setSchedule ts s).drawId = s.drawId := rfl
@[simp] theorem setSchedule_hostData : (setSchedule ts s).hostData = s.hostData := rfl
@[simp] theorem setSchedule_schedule : (setSchedule ts s).schedule = ts := rfl
@[simp] theorem setSchedule_cycle : (setSchedule ts s).cycle = s.cycle := rfl
@[simp] theorem setSchedule_freeTurns : (setSchedule ts s).freeTurns = s.freeTurns := rfl

/-! ### startDraw -/

@[simp] theorem startDraw_params : (startDraw st s).params = s.params := rfl
@[simp] theorem startDraw_f : (startDraw st s).f = s.f := rfl
@[simp] theorem startDraw_sx : (startDraw st s).sx = s.sx := rfl
@[simp] theorem startDraw_sy : (startDraw st s).sy = s.sy := rfl
@[simp] theorem startDraw_coeffA : (startDraw st s).coeffA = s.coeffA := rfl
@[simp] theorem startDraw_batchBuf : (startDraw st s).batchBuf = s.batchBuf := rfl
@[simp] theorem startDraw_phase : (startDraw st s).phase = s.phase := rfl
@[simp] theorem startDraw_cur : (startDraw st s).cur = s.cur := rfl
@[simp] theorem startDraw_stage : (startDraw st s).stage = st := rfl
@[simp] theorem startDraw_loopIdx : (startDraw st s).loopIdx = 0 := rfl
@[simp] theorem startDraw_ndraws : (startDraw st s).ndraws = s.ndraws := rfl
@[simp] theorem startDraw_reply : (startDraw st s).reply = none := rfl
@[simp] theorem startDraw_ereq : (startDraw st s).ereq = .pending := rfl
@[simp] theorem startDraw_done : (startDraw st s).done = s.done := rfl
@[simp] theorem startDraw_err : (startDraw st s).err = s.err := rfl
@[simp] theorem startDraw_overrun : (startDraw st s).overrun = s.overrun := rfl
@[simp] theorem startDraw_fatal : (startDraw st s).fatal = s.fatal := rfl
@[simp] theorem startDraw_errcode : (startDraw st s).errcode = s.errcode := rfl
@[simp] theorem startDraw_doneIE : (startDraw st s).doneIE = s.doneIE := rfl
@[simp] theorem startDraw_errIE : (startDraw st s).errIE = s.errIE := rfl
@[simp] theorem startDraw_genT : (startDraw st s).genT = s.genT := rfl
@[simp] theorem startDraw_genN : (startDraw st s).genN = s.genN := rfl
@[simp] theorem startDraw_recBase : (startDraw st s).recBase = s.recBase := rfl
@[simp] theorem startDraw_recCount : (startDraw st s).recCount = s.recCount := rfl
@[simp] theorem startDraw_sidx : (startDraw st s).sidx = s.sidx := rfl
@[simp] theorem startDraw_entropyCount : (startDraw st s).entropyCount = s.entropyCount := rfl
@[simp] theorem startDraw_drawId : (startDraw st s).drawId = s.drawId + 1 := rfl
@[simp] theorem startDraw_hostData : (startDraw st s).hostData = s.hostData := rfl
@[simp] theorem startDraw_schedule : (startDraw st s).schedule = s.schedule := rfl
@[simp] theorem startDraw_cycle : (startDraw st s).cycle = s.cycle := rfl
@[simp] theorem startDraw_freeTurns : (startDraw st s).freeTurns = s.freeTurns := rfl

/-! ### loadCoeffs -/

@[simp] theorem loadCoeffs_params : (loadCoeffs t s).params = s.params := rfl
@[simp] theorem loadCoeffs_f : (loadCoeffs t s).f = s.f := rfl
@[simp] theorem loadCoeffs_sx : (loadCoeffs t s).sx = s.sx := rfl
@[simp] theorem loadCoeffs_sy : (loadCoeffs t s).sy = s.sy := rfl
@[simp] theorem loadCoeffs_coeffA : (loadCoeffs t s).coeffA =
    Memory.fill s.coeffA (fun i => if i = 0 then Memory.read s.coeffA 0 else Memory.read s.batchBuf (i - 1)) t := rfl
@[simp] theorem loadCoeffs_batchBuf : (loadCoeffs t s).batchBuf = s.batchBuf := rfl
@[simp] theorem loadCoeffs_phase : (loadCoeffs t s).phase = s.phase := rfl
@[simp] theorem loadCoeffs_cur : (loadCoeffs t s).cur = s.cur := rfl
@[simp] theorem loadCoeffs_stage : (loadCoeffs t s).stage = s.stage := rfl
@[simp] theorem loadCoeffs_loopIdx : (loadCoeffs t s).loopIdx = s.loopIdx := rfl
@[simp] theorem loadCoeffs_ndraws : (loadCoeffs t s).ndraws = s.ndraws := rfl
@[simp] theorem loadCoeffs_reply : (loadCoeffs t s).reply = s.reply := rfl
@[simp] theorem loadCoeffs_ereq : (loadCoeffs t s).ereq = s.ereq := rfl
@[simp] theorem loadCoeffs_done : (loadCoeffs t s).done = s.done := rfl
@[simp] theorem loadCoeffs_err : (loadCoeffs t s).err = s.err := rfl
@[simp] theorem loadCoeffs_overrun : (loadCoeffs t s).overrun = s.overrun := rfl
@[simp] theorem loadCoeffs_fatal : (loadCoeffs t s).fatal = s.fatal := rfl
@[simp] theorem loadCoeffs_errcode : (loadCoeffs t s).errcode = s.errcode := rfl
@[simp] theorem loadCoeffs_doneIE : (loadCoeffs t s).doneIE = s.doneIE := rfl
@[simp] theorem loadCoeffs_errIE : (loadCoeffs t s).errIE = s.errIE := rfl
@[simp] theorem loadCoeffs_genT : (loadCoeffs t s).genT = s.genT := rfl
@[simp] theorem loadCoeffs_genN : (loadCoeffs t s).genN = s.genN := rfl
@[simp] theorem loadCoeffs_recBase : (loadCoeffs t s).recBase = s.recBase := rfl
@[simp] theorem loadCoeffs_recCount : (loadCoeffs t s).recCount = s.recCount := rfl
@[simp] theorem loadCoeffs_sidx : (loadCoeffs t s).sidx = s.sidx := rfl
@[simp] theorem loadCoeffs_entropyCount : (loadCoeffs t s).entropyCount = s.entropyCount := rfl
@[simp] theorem loadCoeffs_drawId : (loadCoeffs t s).drawId = s.drawId := rfl
@[simp] theorem loadCoeffs_hostData : (loadCoeffs t s).hostData = s.hostData := rfl
@[simp] theorem loadCoeffs_schedule : (loadCoeffs t s).schedule = s.schedule := rfl
@[simp] theorem loadCoeffs_cycle : (loadCoeffs t s).cycle = s.cycle := rfl
@[simp] theorem loadCoeffs_freeTurns : (loadCoeffs t s).freeTurns = s.freeTurns := rfl

/-! ### storeShares -/

@[simp] theorem storeShares_params : (storeShares t n s).params = s.params := rfl
@[simp] theorem storeShares_f : (storeShares t n s).f = s.f := rfl
@[simp] theorem storeShares_sx : (storeShares t n s).sx =
    Memory.fill s.sx (fun j => Memory.read s.batchBuf j) n := rfl
@[simp] theorem storeShares_sy : (storeShares t n s).sy =
    Memory.fill s.sy (fun j => BitVec.ofNat 256 (polyEval (polynomial s.coeffA) t (Memory.read s.batchBuf j).toNat)) n := rfl
@[simp] theorem storeShares_coeffA : (storeShares t n s).coeffA = s.coeffA := rfl
@[simp] theorem storeShares_batchBuf : (storeShares t n s).batchBuf = s.batchBuf := rfl
@[simp] theorem storeShares_phase : (storeShares t n s).phase = s.phase := rfl
@[simp] theorem storeShares_cur : (storeShares t n s).cur = s.cur := rfl
@[simp] theorem storeShares_stage : (storeShares t n s).stage = s.stage := rfl
@[simp] theorem storeShares_loopIdx : (storeShares t n s).loopIdx = s.loopIdx := rfl
@[simp] theorem storeShares_ndraws : (storeShares t n s).ndraws = s.ndraws := rfl
@[simp] theorem storeShares_reply : (storeShares t n s).reply = s.reply := rfl
@[simp] theorem storeShares_ereq : (storeShares t n s).ereq = s.ereq := rfl
@[simp] theorem storeShares_done : (storeShares t n s).done = s.done := rfl
@[simp] theorem storeShares_err : (storeShares t n s).err = s.err := rfl
@[simp] theorem storeShares_overrun : (storeShares t n s).overrun = s.overrun := rfl
@[simp] theorem storeShares_fatal : (storeShares t n s).fatal = s.fatal := rfl
@[simp] theorem storeShares_errcode : (storeShares t n s).errcode = s.errcode := rfl
@[simp] theorem storeShares_doneIE : (storeShares t n s).doneIE = s.doneIE := rfl
@[simp] theorem storeShares_errIE : (storeShares t n s).errIE = s.errIE := rfl
@[simp] theorem storeShares_genT : (storeShares t n s).genT = s.genT := rfl
@[simp] theorem storeShares_genN : (storeShares t n s).genN = s.genN := rfl
@[simp] theorem storeShares_recBase : (storeShares t n s).recBase = s.recBase := rfl
@[simp] theorem storeShares_recCount : (storeShares t n s).recCount = s.recCount := rfl
@[simp] theorem storeShares_sidx : (storeShares t n s).sidx = s.sidx := rfl
@[simp] theorem storeShares_entropyCount : (storeShares t n s).entropyCount = s.entropyCount := rfl
@[simp] theorem storeShares_drawId : (storeShares t n s).drawId = s.drawId := rfl
@[simp] theorem storeShares_hostData : (storeShares t n s).hostData = s.hostData := rfl
@[simp] theorem storeShares_schedule : (storeShares t n s).schedule = s.schedule := rfl
@[simp] theorem storeShares_cycle : (storeShares t n s).cycle = s.cycle := rfl
@[simp] theorem storeShares_freeTurns : (storeShares t n s).freeTurns = s.freeTurns := rfl

/-! ### wipeShares -/

@[simp] theorem wipeShares_params : (wipeShares n s).params = s.params := rfl
@[simp] theorem wipeShares_f : (wipeShares n s).f = s.f := rfl
@[simp] theorem wipeShares_sx : (wipeShares n s).sx = Memory.fill s.sx (fun _ => 0) n := rfl
@[simp] theorem wipeShares_sy : (wipeShares n s).sy = Memory.fill s.sy (fun _ => 0) n := rfl
@[simp] theorem wipeShares_coeffA : (wipeShares n s).coeffA = s.coeffA := rfl
@[simp] theorem wipeShares_batchBuf : (wipeShares n s).batchBuf = s.batchBuf := rfl
@[simp] theorem wipeShares_phase : (wipeShares n s).phase = s.phase := rfl
@[simp] theorem wipeShares_cur : (wipeShares n s).cur = s.cur := rfl
@[simp] theorem wipeShares_stage : (wipeShares n s).stage = s.stage := rfl
@[simp] theorem wipeShares_loopIdx : (wipeShares n s).loopIdx = s.loopIdx := rfl
@[simp] theorem wipeShares_ndraws : (wipeShares n s).ndraws = s.ndraws := rfl
@[simp] theorem wipeShares_reply : (wipeShares n s).reply = s.reply := rfl
@[simp] theorem wipeShares_ereq : (wipeShares n s).ereq = s.ereq := rfl
@[simp] theorem wipeShares_done : (wipeShares n s).done = s.done := rfl
@[simp] theorem wipeShares_err : (wipeShares n s).err = s.err := rfl
@[simp] theorem wipeShares_overrun : (wipeShares n s).overrun = s.overrun := rfl
@[simp] theorem wipeShares_fatal : (wipeShares n s).fatal = s.fatal := rfl
@[simp] theorem wipeShares_errcode : (wipeShares n s).errcode = s.errcode := rfl
@[simp] theorem wipeShares_doneIE : (wipeShares n s).doneIE = s.doneIE := rfl
@[simp] theorem wipeShares_errIE : (wipeShares n s).errIE = s.errIE := rfl
@[simp] theorem wipeShares_genT : (wipeShares n s).genT = s.genT := rfl
@[simp] theorem wipeShares_genN : (wipeShares n s).genN = s.genN := rfl
@[simp] theorem wipeShares_recBase : (wipeShares n s).recBase = s.recBase := rfl
@[simp] theorem wipeShares_recCount : (wipeShares n s).recCount = s.recCount := rfl
@[simp] theorem wipeShares_sidx : (wipeShares n s).sidx = s.sidx := rfl
@[simp] theorem wipeShares_entropyCount : (wipeShares n s).entropyCount = s.entropyCount := rfl
@[simp] theorem wipeShares_drawId : (wipeShares n s).drawId = s.drawId := rfl
@[simp] theorem wipeShares_hostData : (wipeShares n s).hostData = s.hostData := rfl
@[simp] theorem wipeShares_schedule : (wipeShares n s).schedule = s.schedule := rfl
@[simp] theorem wipeShares_cycle : (wipeShares n s).cycle = s.cycle := rfl
@[simp] theorem wipeShares_freeTurns : (wipeShares n s).freeTurns = s.freeTurns := rfl

/-! ### advance: the turns to come and nothing else -/

/-- Taking a turn off changes the turns to come and nothing else. -/
theorem advance_eq :
    advance s = { s with schedule := (advance s).schedule, freeTurns := (advance s).freeTurns } := by
  unfold advance; split <;> rfl

@[simp] theorem advance_params : (advance s).params = s.params := by rw [advance_eq]
@[simp] theorem advance_f : (advance s).f = s.f := by rw [advance_eq]
@[simp] theorem advance_sx : (advance s).sx = s.sx := by rw [advance_eq]
@[simp] theorem advance_sy : (advance s).sy = s.sy := by rw [advance_eq]
@[simp] theorem advance_coeffA : (advance s).coeffA = s.coeffA := by rw [advance_eq]
@[simp] theorem advance_batchBuf : (advance s).batchBuf = s.batchBuf := by rw [advance_eq]
@[simp] theorem advance_phase : (advance s).phase = s.phase := by rw [advance_eq]
@[simp] theorem advance_cur : (advance s).cur = s.cur := by rw [advance_eq]
@[simp] theorem advance_stage : (advance s).stage = s.stage := by rw [advance_eq]
@[simp] theorem advance_loopIdx : (advance s).loopIdx = s.loopIdx := by rw [advance_eq]
@[simp] theorem advance_ndraws : (advance s).ndraws = s.ndraws := by rw [advance_eq]
@[simp] theorem advance_reply : (advance s).reply = s.reply := by rw [advance_eq]
@[simp] theorem advance_ereq : (advance s).ereq = s.ereq := by rw [advance_eq]
@[simp] theorem advance_done : (advance s).done = s.done := by rw [advance_eq]
@[simp] theorem advance_err : (advance s).err = s.err := by rw [advance_eq]
@[simp] theorem advance_overrun : (advance s).overrun = s.overrun := by rw [advance_eq]
@[simp] theorem advance_fatal : (advance s).fatal = s.fatal := by rw [advance_eq]
@[simp] theorem advance_errcode : (advance s).errcode = s.errcode := by rw [advance_eq]
@[simp] theorem advance_doneIE : (advance s).doneIE = s.doneIE := by rw [advance_eq]
@[simp] theorem advance_errIE : (advance s).errIE = s.errIE := by rw [advance_eq]
@[simp] theorem advance_genT : (advance s).genT = s.genT := by rw [advance_eq]
@[simp] theorem advance_genN : (advance s).genN = s.genN := by rw [advance_eq]
@[simp] theorem advance_recBase : (advance s).recBase = s.recBase := by rw [advance_eq]
@[simp] theorem advance_recCount : (advance s).recCount = s.recCount := by rw [advance_eq]
@[simp] theorem advance_sidx : (advance s).sidx = s.sidx := by rw [advance_eq]
@[simp] theorem advance_entropyCount : (advance s).entropyCount = s.entropyCount := by rw [advance_eq]
@[simp] theorem advance_drawId : (advance s).drawId = s.drawId := by rw [advance_eq]
@[simp] theorem advance_hostData : (advance s).hostData = s.hostData := by rw [advance_eq]
@[simp] theorem advance_cycle : (advance s).cycle = s.cycle := by rw [advance_eq]

end Sys2Proof.Machine
end

