-- ==== Sys2Proof/Laws/Ops.lean ====
section
/-! SUPPORT. What each shared operation of the machine can answer, said once: the error entry, the operand forms, the
arithmetic shapes, one step of a batch, the answer to a draw, the turns; and that the state updates keep the stores in
their form. Later proofs cite these and unfold no operation. -/

namespace Sys2Proof.Machine

/-! ### Busy -/

@[simp] theorem busy_iff (s : State) : s.busy = true ↔ s.phase = .exec := by simp [State.busy]

@[simp] theorem busy_false_iff (s : State) : s.busy = false ↔ s.phase = .idle := by
  cases h : s.phase <;> simp [State.busy, h]

/-! ### The error entry -/

/-- An error other than INTERNAL_FAULT is a next state. -/
theorem takeError_of_ne {e : CmdError} (s : State) (h : e ≠ .internalFault) :
    takeError e s = .next (abortState e s) := if_neg h

/-- INTERNAL_FAULT ends in the fault that carries its completion. -/
theorem takeError_internalFault (s : State) :
    takeError .internalFault s = .fault (.internalFault (abortState .internalFault s)) := if_pos rfl

/-- When the error entry answers a next state, and which. -/
theorem takeError_next {e : CmdError} {s t : State} :
    takeError e s = .next t ↔ e ≠ .internalFault ∧ t = abortState e s := by
  unfold takeError
  split <;> simp_all [eq_comm]

/-! ### Operands and the arithmetic shapes -/

theorem fieldOperand_ok {r : RegIdx} {s : State} {a : Nat} :
    fieldOperand r s = .ok a ↔ (readField r s).toNat < PRIME ∧ a = (readField r s).toNat := by
  unfold fieldOperand
  split <;> simp_all [canon, eq_comm]

theorem fieldOperand_error {r : RegIdx} {s : State} {e : CmdError} :
    fieldOperand r s = .error e ↔ PRIME ≤ (readField r s).toNat ∧ e = .malformedInput := by
  unfold fieldOperand
  split <;> simp_all [canon, eq_comm]

/-- Everything a one-source command can answer. -/
theorem unaryOp_cases (op : Nat → Except CmdError Nat) (rd ra : RegIdx) (s : State) :
    (PRIME ≤ (readField ra s).toNat ∧ unaryOp op rd ra s = takeError .malformedInput s) ∨
    ((readField ra s).toNat < PRIME ∧
      ((∃ e, op (readField ra s).toNat = .error e ∧ unaryOp op rd ra s = takeError e s) ∨
       (∃ v, op (readField ra s).toNat = .ok v ∧ unaryOp op rd ra s = .next (complete (writeField rd v s))))) := by
  unfold unaryOp
  cases ha : fieldOperand ra s with
  | error e => exact .inl ⟨(fieldOperand_error.1 ha).1, by rw [(fieldOperand_error.1 ha).2]⟩
  | ok a =>
    obtain ⟨hlt, rfl⟩ := fieldOperand_ok.1 ha
    refine .inr ⟨hlt, ?_⟩
    cases ho : op (readField ra s).toNat with
    | error e => exact .inl ⟨e, rfl, by simp [ho]⟩
    | ok v => exact .inr ⟨v, rfl, by simp [ho]⟩

/-- Everything a two-source command can answer. -/
theorem binaryOp_cases (op : Nat → Nat → Except CmdError Nat) (rd ra rb : RegIdx) (s : State) :
    ((PRIME ≤ (readField ra s).toNat ∨ PRIME ≤ (readField rb s).toNat) ∧
      binaryOp op rd ra rb s = takeError .malformedInput s) ∨
    ((readField ra s).toNat < PRIME ∧ (readField rb s).toNat < PRIME ∧
      ((∃ e, op (readField ra s).toNat (readField rb s).toNat = .error e ∧ binaryOp op rd ra rb s = takeError e s) ∨
       (∃ v, op (readField ra s).toNat (readField rb s).toNat = .ok v ∧
          binaryOp op rd ra rb s = .next (complete (writeField rd v s))))) := by
  unfold binaryOp
  cases ha : fieldOperand ra s with
  | error e => exact .inl ⟨.inl (fieldOperand_error.1 ha).1, by rw [(fieldOperand_error.1 ha).2]⟩
  | ok a =>
    obtain ⟨hlt, rfl⟩ := fieldOperand_ok.1 ha
    cases hb : fieldOperand rb s with
    | error e => exact .inl ⟨.inr (fieldOperand_error.1 hb).1, by rw [(fieldOperand_error.1 hb).2]⟩
    | ok b =>
      obtain ⟨hlt', rfl⟩ := fieldOperand_ok.1 hb
      refine .inr ⟨hlt, hlt', ?_⟩
      cases ho : op (readField ra s).toNat (readField rb s).toNat with
      | error e => exact .inl ⟨e, rfl, by simp [ho]⟩
      | ok v => exact .inr ⟨v, rfl, by simp [ho]⟩

theorem windowCanon_iff (s : State) (base k : Nat) :
    windowCanon s base k = true ↔ ∀ j < k, shareX s (base + j) < PRIME ∧ shareY s (base + j) < PRIME := by
  induction k with
  | zero => simp [windowCanon]
  | succ k ih =>
    simp only [windowCanon, Bool.and_eq_true, ih, canon, decide_eq_true_eq]
    constructor
    · rintro ⟨h, hk⟩ j hj
      rcases Nat.lt_succ_iff_lt_or_eq.1 hj with hj | rfl
      exacts [h j hj, hk]
    · intro h
      exact ⟨fun j hj => h j (by omega), h k (by omega)⟩

/-! ### Batches and draws -/

theorem batchNonzero_iff (m : Memory) (k : Nat) : batchNonzero m k = true ↔ ∀ i < k, Memory.read m i ≠ 0 := by
  induction k with
  | zero => simp [batchNonzero]
  | succ k ih =>
    simp only [batchNonzero, Bool.and_eq_true, ih, bne_iff_ne]
    constructor
    · rintro ⟨h, hk⟩ i hi
      rcases Nat.lt_succ_iff_lt_or_eq.1 hi with hi | rfl
      exacts [h i hi, hk]
    · intro h
      exact ⟨fun i hi => h i (by omega), h k (by omega)⟩

/-- Everything one core step of a batch of k can come to. -/
theorem batchStep_cases (k : Nat) (s : State) :
    (s.reply = none ∧ batchStep k s = .waiting) ∨
    (s.reply = some .fail ∧ batchStep k s = .failed) ∨
    (∃ b, s.reply = some (.ok b) ∧
      ((s.loopIdx + 1 < k ∧
          batchStep k s = .more (requestDraw (setIndex (s.loopIdx + 1) (storeSample b s)))) ∨
       (k ≤ s.loopIdx + 1 ∧ (∀ i < k, Memory.read (storeSample b s).batchBuf i ≠ 0) ∧
          batchStep k s = .accepted (storeSample b s)) ∨
       (k ≤ s.loopIdx + 1 ∧ (∃ i < k, Memory.read (storeSample b s).batchBuf i = 0) ∧
          batchStep k s = .more (requestDraw (setIndex 0 (storeSample b s)))))) := by
  unfold batchStep
  cases hr : s.reply with
  | none => exact .inl ⟨rfl, rfl⟩
  | some r =>
    cases r with
    | fail => exact .inr (.inl ⟨rfl, rfl⟩)
    | ok b =>
      refine .inr (.inr ⟨b, rfl, ?_⟩)
      by_cases h1 : s.loopIdx + 1 < k
      · exact .inl ⟨h1, by simp [h1]⟩
      · refine .inr ?_
        by_cases h2 : batchNonzero (storeSample b s).batchBuf k = true
        · exact .inl ⟨by omega, (batchNonzero_iff _ _).1 h2, by simp only [if_neg h1, if_pos h2]⟩
        · refine .inr ⟨by omega, ?_, by simp only [if_neg h1, if_neg h2]⟩
          rw [batchNonzero_iff] at h2
          push Not at h2
          exact h2

theorem answersNewest_iff (d : Option Nat) (s : State) :
    answersNewest d s = true ↔ d = none ∨ d = some s.drawId := by simp [answersNewest]

/-- An answer is taken exactly by the pending draw it is to. -/
theorem answerDraw_cases (d : Option Nat) (r : Reply) (s : State) :
    (s.ereq = .pending ∧ answersNewest d s = true ∧ answerDraw d r s = deliver r s) ∨
    ((s.ereq = .none ∨ answersNewest d s = false) ∧ answerDraw d r s = s) := by
  unfold answerDraw
  split
  · rename_i h; exact .inl ⟨h.1, h.2, rfl⟩
  · rename_i h
    refine .inr ⟨?_, rfl⟩
    cases he : s.ereq with
    | none => exact .inl rfl
    | pending => exact .inr (by simpa [he] using h)

/-! ### Turns -/

/-- A step is the turn that is next, taken on the state without it. -/
theorem step_eq (s : State) : step s = takeTurn (upcoming s) (advance s) := rfl

theorem step_turn {s : State} {t : Turn} (h : upcoming s = t) : step s = takeTurn t (advance s) := by
  rw [step_eq, h]

/-- What a step that answers a next state is: the core's turn, one host access, or one answer of the entropy source. -/
theorem step_cases {s t : State} (h : step s = .next t) :
    (upcoming s = .core ∧ coreTurn (advance s) = .next t) ∨
    (∃ a, upcoming s = .host a ∧ t = hostAccess a (advance s)) ∨
    (∃ d r, upcoming s = .entropy d r ∧ t = answerDraw d r (advance s)) := by
  rw [step_eq] at h
  cases hu : upcoming s <;> rw [hu] at h
  · cases h; exact .inr (.inl ⟨_, rfl, rfl⟩)
  · exact .inl ⟨rfl, h⟩
  · cases h; exact .inr (.inr ⟨_, _, rfl, rfl⟩)

theorem upcoming_schedule {s : State} {t : Turn} {rest : List Turn} (h : s.schedule = t :: rest) :
    upcoming s = t ∧ advance s = setSchedule rest s := by
  simp [upcoming, advance, h]

theorem upcoming_cycle {s : State} {t : Turn} {rest : List Turn} (h : s.schedule = []) (hc : s.cycle = t :: rest) :
    upcoming s = t ∧ advance s = setSchedule rest s := by
  simp [upcoming, advance, h, hc]

theorem upcoming_free {s : State} (h : s.schedule = []) (hc : s.cycle = []) :
    upcoming s = Config.freeTurn s.freeTurns ∧ advance s = { s with freeTurns := s.freeTurns + 1 } := by
  simp [upcoming, advance, h, hc]

theorem coreTurn_idle {s : State} (h : s.phase = .idle) : coreTurn s = .next s := by simp [coreTurn, h]

theorem coreTurn_command {s : State} {i : Instr} (h : s.phase = .exec) (hd : decode s.cur = some i) :
    coreTurn s = exec i s := by simp [coreTurn, h, hd]

theorem coreTurn_illegal {s : State} (h : s.phase = .exec) (hd : decode s.cur = none) :
    coreTurn s = takeError .illegalCommand s := by simp [coreTurn, h, hd, execIllegal]

/-! ### The form of the stores -/

theorem storeOk_iff (p : Params) (m : Memory) :
    storeOk p m = true ↔ Memory.wf m = true ∧ Memory.within p.maxShares m = true := by simp [storeOk]

theorem storeOk_nil (p : Params) : storeOk p [] = true := rfl

theorem storeOk_write {p : Params} {m : Memory} (a : Nat) (v : Word256) (h : storeOk p m = true)
    (ha : a < p.maxShares) : storeOk p (Memory.write m a v) = true := by
  rw [storeOk_iff] at h ⊢
  exact ⟨memory_write_wf a v h.1, memory_write_within v h.2 ha⟩

theorem storeOk_fill {p : Params} {m : Memory} (g : Nat → Word256) {n : Nat} (h : storeOk p m = true)
    (hn : n ≤ p.maxShares) : storeOk p (Memory.fill m g n) = true := by
  rw [storeOk_iff] at h ⊢
  exact ⟨memory_fill_wf g n h.1, memory_fill_within g h.2 hn⟩

/-- Reset's stores are in their form. -/
theorem reset_stores : StoresOk State.reset := ⟨rfl, rfl, rfl, rfl⟩

/-- SIDX in range is what a window write needs to keep the form. -/
theorem writeSX_stores {k : Fin 8} {v : Word32} {s : State} (h : StoresOk s) : StoresOk (writeSX k v s) := by
  unfold writeSX
  split
  · rename_i hr
    exact ⟨storeOk_write _ _ h.sx (by simpa [sidxInRange] using hr), h.sy, h.coeffA, h.batchBuf⟩
  · exact h

theorem writeSY_stores {k : Fin 8} {v : Word32} {s : State} (h : StoresOk s) : StoresOk (writeSY k v s) := by
  unfold writeSY
  split
  · rename_i hr
    exact ⟨h.sx, storeOk_write _ _ h.sy (by simpa [sidxInRange] using hr), h.coeffA, h.batchBuf⟩
  · exact h

end Sys2Proof.Machine
end

