-- ==== Sys2Proof/Laws/Exec.lean ====
section
/-! SUPPORT. Everything a core step of a command can answer with a next state, said once (exec_cases): a later proof
splits into these few forms and unfolds no meaning. -/

namespace Sys2Proof.Laws

open Sys2Proof.Machine

/-- BUF after the answer b is stored at the index of the batch. -/
def stored (b : Vector Byte 32) (s : State) : Memory :=
  Memory.write s.batchBuf s.loopIdx (BitVec.ofNat 256 (sample b))

/-- The coefficient store after the batch m is loaded into entries 1 to t-1. -/
def loaded (t : Nat) (m : Memory) (s : State) : Memory :=
  Memory.fill s.coeffA (fun i => if i = 0 then Memory.read s.coeffA 0 else Memory.read m (i - 1)) t

/-- What a core step of command i leaves of s. -/
inductive Ran (i : Instr) (s : State) : State → Prop where
  /-- The draw has no answer yet. -/
  | waiting : Draws i s.stage → s.reply = none → Ran i s s
  /-- RAND's draw, or RANDNZ's first. -/
  | started (st : Stage) (rd : RegIdx) : ¬ Draws i s.stage →
      i = .rand rd ∧ st = .sampling ∨ i = .randnz rd ∧ st = .batchOne →
      Ran i s (drawing st 0 s.ndraws s.coeffA s.batchBuf s)
  /-- GENERATE's checks passed: its first draw. -/
  | checked (ra : RegIdx) : ¬ Draws i s.stage → i = .generate ra → 1 < s.genT.toNat → s.genT.toNat ≤ s.genN.toNat →
      s.genN.toNat ≤ s.params.maxShares → (readField ra s).toNat < PRIME →
      Ran i s (drawing (.coeffs s.genT.toNat s.genN.toNat (readField ra s)) 0 s.ndraws
        (Memory.write s.coeffA 0 (readField ra s)) s.batchBuf s)
  /-- The next draw of a batch, of this round or of a new one. -/
  | again (k j : Nat) (b : Vector Byte 32) : RunsBatch i s.stage k → s.reply = some (.ok b) →
      j = s.loopIdx + 1 ∧ j < k ∨ j = 0 ∧ (∃ l < k, Memory.read (stored b s) l = 0) →
      Ran i s (drawing s.stage j (s.ndraws + 1) s.coeffA (stored b s) s)
  /-- GENERATE's coefficients are loaded: the first draw of the x batch. -/
  | coeffsDone (ra : RegIdx) (t n : Nat) (secret : Word256) (b : Vector Byte 32) : i = .generate ra →
      s.stage = .coeffs t n secret → s.reply = some (.ok b) → t - 1 ≤ s.loopIdx + 1 →
      (∀ l < t - 1, Memory.read (stored b s) l ≠ 0) →
      polyEval (polynomial (loaded t (stored b s) s)) t 0 = secret.toNat →
      Ran i s (drawing (.xs t n secret) 0 (s.ndraws + 1) (loaded t (stored b s) s) (stored b s) s)
  /-- An error that leaves the share memory. -/
  | aborted (e : CmdError) : e ≠ .internalFault →
      (e = .randomnessUnavailable → Draws i s.stage ∧ s.reply = some .fail ∧ ∀ ra, i ≠ .generate ra) →
      (e ≠ .randomnessUnavailable → ¬ Draws i s.stage) →
      (∀ ra, i = .generate ra → e ≠ .divisionByZero) →
      Ran i s (aborted e s.sx s.sy s.ndraws s)
  /-- GENERATE's draw failed. -/
  | wiped (ra : RegIdx) (t n : Nat) (secret : Word256) : i = .generate ra →
      s.stage = .coeffs t n secret ∨ s.stage = .xs t n secret → s.reply = some .fail →
      Ran i s (Machine.aborted .randomnessUnavailable (Memory.fill s.sx (fun _ => 0) n)
        (Memory.fill s.sy (fun _ => 0) n) s.ndraws s)
  /-- NOP. -/
  | nothing : i = .nop → ¬ Draws i s.stage → Ran i s (completed s.f s.sx s.sy s.ndraws s)
  /-- A command without a draw wrote its canonical result. -/
  | computed (rd : RegIdx) (v : Nat) : ¬ Draws i s.stage → destination i = some rd → v < PRIME →
      Ran i s (completed (s.f.set rd.val (BitVec.ofNat 256 v)) s.sx s.sy s.ndraws s)
  /-- RAND, RANDNZ wrote the sample. -/
  | sampled (rd : RegIdx) (b : Vector Byte 32) (v : Word256) : destination i = some rd → s.reply = some (.ok b) →
      i = .rand rd ∧ v = BitVec.ofNat 256 (sample b) ∨ i = .randnz rd ∧ v = Memory.read (stored b s) 0 ∧ v ≠ 0 →
      Ran i s (completed (s.f.set rd.val v) s.sx s.sy (s.ndraws + 1) s)
  /-- GENERATE wrote its shares. -/
  | shared (ra : RegIdx) (t n : Nat) (secret : Word256) (b : Vector Byte 32) : i = .generate ra →
      s.stage = .xs t n secret → s.reply = some (.ok b) → n ≤ s.loopIdx + 1 →
      (∀ l < n, Memory.read (stored b s) l ≠ 0) →
      Ran i s (completed s.f (Memory.fill s.sx (fun j => Memory.read (stored b s) j) n)
        (Memory.fill s.sy (fun j =>
          BitVec.ofNat 256 (polyEval (polynomial s.coeffA) t (Memory.read (stored b s) j).toNat)) n) (s.ndraws + 1) s)

/-! ### What the primitives answer -/

/-- The engine's answer is canonical, and INTERNAL_FAULT is its only error. -/
theorem finv_cases (alg : InvAlgo) (a : Nat) :
    (∃ v, finv alg a = .ok v ∧ v < PRIME) ∨ finv alg a = .error .internalFault := by
  cases alg with
  | extGcd =>
    simp only [finv, invExtGcd]
    split
    · refine .inl ⟨_, rfl, ?_⟩
      have hp := PRIME_pos
      have h1 := Int.emod_lt_of_pos (euclidLoop (a + 1) PRIME a 0 1).2 (Int.natCast_pos.2 hp)
      omega
    · exact .inr rfl
  | fermat =>
    simp only [finv, invFermat]
    split
    · exact .inl ⟨_, rfl, powMod_lt _ _ _⟩
    · exact .inr rfl

theorem finvChecked_cases (alg : InvAlgo) (a : Nat) :
    (∃ v, finvChecked alg a = .ok v ∧ v < PRIME) ∨ finvChecked alg a = .error .internalFault ∨
      finvChecked alg a = .error .divisionByZero := by
  unfold finvChecked
  split
  · exact .inr (.inr rfl)
  · exact (finv_cases alg a).imp_right .inl

theorem fdiv_cases (alg : InvAlgo) (a b : Nat) :
    (∃ v, fdiv alg a b = .ok v ∧ v < PRIME) ∨ fdiv alg a b = .error .internalFault ∨
      fdiv alg a b = .error .divisionByZero := by
  unfold fdiv
  split
  · exact .inr (.inr rfl)
  · obtain ⟨v, hv, _⟩ | hv := finv_cases alg b
    · exact .inl ⟨_, by rw [hv], fmul_lt _ _⟩
    · exact .inr (.inl (by rw [hv]))

theorem basisLoop_error (alg : InvAlgo) (xs : Nat → Nat) (j : Nat) {e : CmdError} : ∀ (is : List Nat) (l : Nat),
    basisLoop alg xs j is l = .error e → e = .internalFault ∨ e = .divisionByZero := by
  intro is
  induction is with
  | nil => intro l h; cases h
  | cons i is ih =>
    intro l h
    unfold basisLoop at h
    split at h
    · exact ih _ h
    · obtain ⟨v, hv, _⟩ | hv | hv := fdiv_cases alg (fsub 0 (xs i)) (fsub (xs j) (xs i)) <;> rw [hv] at h
      · exact ih _ h
      · cases h; exact .inl rfl
      · cases h; exact .inr rfl

theorem lagrangeLoop_cases (alg : InvAlgo) (xs ys : Nat → Nat) (k : Nat) : ∀ (js : List Nat) (acc : Nat), acc < PRIME →
    (∃ v, lagrangeLoop alg xs ys k js acc = .ok v ∧ v < PRIME) ∨
    lagrangeLoop alg xs ys k js acc = .error .internalFault ∨
    lagrangeLoop alg xs ys k js acc = .error .divisionByZero := by
  intro js
  induction js with
  | nil => intro acc h; exact .inl ⟨acc, rfl, h⟩
  | cons j js ih =>
    intro acc h
    unfold lagrangeLoop
    cases hb : basisLoop alg xs j (List.range k) 1 with
    | ok l => exact ih _ (fadd_lt h (fmul_lt _ _))
    | error e => obtain rfl | rfl := basisLoop_error alg xs j _ _ hb <;> simp

theorem lagrange0_cases (alg : InvAlgo) (xs ys : Nat → Nat) (k : Nat) :
    (∃ v, lagrange0 alg xs ys k = .ok v ∧ v < PRIME) ∨ lagrange0 alg xs ys k = .error .internalFault ∨
      lagrange0 alg xs ys k = .error .divisionByZero :=
  lagrangeLoop_cases alg xs ys k _ 0 PRIME_pos

theorem sample_lt (b : Vector Byte 32) : sample b < PRIME := Nat.mod_lt _ PRIME_pos

/-! ### The completions in the words of Sys2Proof/Safety.lean -/

theorem complete_eq (s : State) : complete s = completed s.f s.sx s.sy s.ndraws s := rfl

theorem abortState_eq {e : CmdError} (s : State) (he : e ≠ .internalFault) :
    abortState e s = Machine.aborted e s.sx s.sy s.ndraws s := by
  simp [abortState, errorFlags, complete, Machine.aborted, completed, he]

theorem takeError_eq {e : CmdError} (s : State) (he : e ≠ .internalFault) :
    takeError e s = .next (Machine.aborted e s.sx s.sy s.ndraws s) := by
  rw [takeError_of_ne s he, abortState_eq s he]

/-! ### The inversion of exec -/

/-- Only the three commands with a draw have one outstanding. -/
theorem not_draws {i : Instr} (st : Stage) (h1 : ∀ rd, i ≠ .rand rd) (h2 : ∀ rd, i ≠ .randnz rd)
    (h3 : ∀ ra, i ≠ .generate ra) : ¬ Draws i st
  | .rand rd => h1 rd rfl
  | .batch (.randnz rd) => h2 rd rfl
  | .batch (.coeffs ra _ _ _) => h3 ra rfl
  | .batch (.xs ra _ _ _) => h3 ra rfl

theorem ran_of_error {i : Instr} {s t : State} {e : CmdError} (h : takeError e s = .next t)
    (hr : e ≠ .randomnessUnavailable) (hn : ¬ Draws i s.stage) (hg : ∀ ra, i = .generate ra → e ≠ .divisionByZero) : Ran i s t := by
  obtain ⟨he, rfl⟩ := takeError_next.1 h
  rw [abortState_eq s he]
  exact .aborted e he (fun h => absurd h hr) (fun _ => hn) hg

theorem ran_of_unary {op : Nat → Except CmdError Nat} {rd ra : RegIdx} {i : Instr} {s t : State}
    (h : unaryOp op rd ra s = .next t) (hd : destination i = some rd) (hn : ¬ Draws i s.stage)
    (hop : ∀ a, (∃ v, op a = .ok v ∧ v < PRIME) ∨ op a = .error .internalFault ∨ op a = .error .divisionByZero) :
    Ran i s t := by
  have hg : ∀ ra, i ≠ .generate ra := fun ra hi => by subst hi; cases hd
  obtain ⟨_, h'⟩ | ⟨_, ⟨e, he, h'⟩ | ⟨v, hv, h'⟩⟩ := unaryOp_cases op rd ra s <;> rw [h'] at h
  · exact ran_of_error h (by decide) hn fun ra hi => absurd hi (hg ra)
  · refine ran_of_error h ?_ hn fun ra hi => absurd hi (hg ra)
    obtain ⟨v, hv, _⟩ | hv | hv := hop (readField ra s).toNat <;> rw [hv] at he <;> cases he <;> decide
  · cases h
    obtain ⟨w, hw, hlt⟩ | hw | hw := hop (readField ra s).toNat <;> rw [hw] at hv <;> cases hv
    exact .computed rd v hn hd hlt

theorem ran_of_binary {op : Nat → Nat → Except CmdError Nat} {rd ra rb : RegIdx} {i : Instr} {s t : State}
    (h : binaryOp op rd ra rb s = .next t) (hd : destination i = some rd) (hn : ¬ Draws i s.stage)
    (hop : ∀ a b, a < PRIME → b < PRIME →
      (∃ v, op a b = .ok v ∧ v < PRIME) ∨ op a b = .error .internalFault ∨ op a b = .error .divisionByZero) :
    Ran i s t := by
  have hg : ∀ ra, i ≠ .generate ra := fun ra hi => by subst hi; cases hd
  obtain ⟨_, h'⟩ | ⟨ha, hb, ⟨e, he, h'⟩ | ⟨v, hv, h'⟩⟩ := binaryOp_cases op rd ra rb s <;> rw [h'] at h
  · exact ran_of_error h (by decide) hn fun ra hi => absurd hi (hg ra)
  · refine ran_of_error h ?_ hn fun ra hi => absurd hi (hg ra)
    obtain ⟨v, hv, _⟩ | hv | hv := hop _ _ ha hb <;> rw [hv] at he <;> cases he <;> decide
  · cases h
    obtain ⟨w, hw, hlt⟩ | hw | hw := hop _ _ ha hb <;> rw [hw] at hv <;> cases hv
    exact .computed rd v hn hd hlt

theorem ran_of_reconstruct {rd : RegIdx} {s t : State} (h : exec (.reconstruct rd) s = .next t) :
    Ran (.reconstruct rd) s t := by
  have hn : ¬ Draws (.reconstruct rd) s.stage := not_draws _ nofun nofun nofun
  simp only [exec, execReconstruct] at h
  split at h
  · exact ran_of_error h (by decide) hn nofun
  split at h
  · exact ran_of_error h (by decide) hn nofun
  obtain ⟨v, hv, hlt⟩ | hv | hv := lagrange0_cases s.params.invAlgo (fun j => shareX s (s.recBase.toNat + j))
    (fun j => shareY s (s.recBase.toNat + j)) s.recCount.toNat <;> rw [hv] at h
  · cases h; exact .computed rd v hn rfl hlt
  · exact ran_of_error h (by decide) hn nofun
  · exact ran_of_error h (by decide) hn nofun

theorem ran_of_rand {rd : RegIdx} {s t : State} (h : exec (.rand rd) s = .next t) : Ran (.rand rd) s t := by
  simp only [exec, execRand] at h
  split at h
  · rename_i hs
    split at h
    · rename_i hr
      cases h; exact .waiting (hs ▸ .rand rd) hr
    · rename_i hr
      rw [takeError_eq s (by decide)] at h
      cases h
      exact .aborted _ (by decide) (fun _ => ⟨hs ▸ .rand rd, hr, nofun⟩) (fun h => absurd rfl h) nofun
    · rename_i b hr
      cases h; exact .sampled rd b _ rfl hr (.inl ⟨rfl, rfl⟩)
  all_goals
    rename_i hs
    cases h
    exact .started .sampling rd (by rw [hs]; nofun) (.inl ⟨rfl, rfl⟩)

/-- The forms that the three batches share. -/
theorem ran_of_batch {i : Instr} {s : State} {k : Nat} (hb : RunsBatch i s.stage k) :
    (batchStep k s = .waiting ∧ s.reply = none ∧ Ran i s s) ∨ (batchStep k s = .failed ∧ s.reply = some .fail) ∨
    (∃ t, batchStep k s = .more t ∧ Ran i s t) ∨
    (∃ b, s.reply = some (.ok b) ∧ k ≤ s.loopIdx + 1 ∧ (∀ l < k, Memory.read (stored b s) l ≠ 0) ∧
      batchStep k s = .accepted (storeSample b s)) := by
  obtain ⟨hr, h⟩ | ⟨hr, h⟩ | ⟨b, hr, ⟨hl, h⟩ | ⟨hl, hz, h⟩ | ⟨_, hz, h⟩⟩ := batchStep_cases k s
  · exact .inl ⟨h, hr, .waiting (.batch hb) hr⟩
  · exact .inr (.inl ⟨h, hr⟩)
  · exact .inr (.inr (.inl ⟨_, h, .again k _ b hb hr (.inl ⟨rfl, hl⟩)⟩))
  · exact .inr (.inr (.inr ⟨b, hr, hl, hz, h⟩))
  · exact .inr (.inr (.inl ⟨_, h, .again k _ b hb hr (.inr ⟨rfl, hz⟩)⟩))

theorem ran_of_randnz {rd : RegIdx} {s t : State} (h : exec (.randnz rd) s = .next t) : Ran (.randnz rd) s t := by
  simp only [exec, execRandnz] at h
  split at h
  · rename_i hs
    have hb : RunsBatch (.randnz rd) s.stage 1 := hs ▸ .randnz rd
    obtain ⟨h', _, hran⟩ | ⟨h', hr⟩ | ⟨u, h', hran⟩ | ⟨b, hr, _, hz, h'⟩ := ran_of_batch hb <;> rw [h'] at h
    · cases h; exact hran
    · simp only [takeError_eq s (e := .randomnessUnavailable) (by decide)] at h
      cases h
      exact .aborted _ (by decide) (fun _ => ⟨.batch hb, hr, nofun⟩) (fun h => absurd rfl h) nofun
    · cases h; exact hran
    · cases h; exact .sampled rd b _ rfl hr (.inr ⟨rfl, rfl, hz 0 (by decide)⟩)
  all_goals
    rename_i hs
    cases h
    exact .started .batchOne rd (by rw [hs]; nofun) (.inr ⟨rfl, rfl⟩)

theorem ran_of_generateStart {ra : RegIdx} {s t : State} (h : generateStart ra s = .next t)
    (hn : ¬ Draws (.generate ra) s.stage) :
    Ran (.generate ra) s t := by
  unfold generateStart at h
  split at h
  · exact ran_of_error h (by decide) hn fun _ _ => by decide
  split at h
  · exact ran_of_error h (by decide) hn fun _ _ => by decide
  rename_i h1 h2
  cases hf : fieldOperand ra s with
  | error e =>
    rw [hf] at h
    obtain ⟨_, rfl⟩ := fieldOperand_error.1 hf
    exact ran_of_error h (by decide) hn fun _ _ => by decide
  | ok a =>
    rw [hf] at h
    cases h
    exact .checked ra hn rfl (by omega) (by omega) (by omega) (fieldOperand_ok.1 hf).1

theorem ran_of_generate {ra : RegIdx} {s t : State} (h : exec (.generate ra) s = .next t) : Ran (.generate ra) s t := by
  simp only [exec, execGenerate] at h
  split at h
  · rename_i th n secret hs
    have hb : RunsBatch (.generate ra) s.stage (th - 1) := hs ▸ .coeffs ra th n secret
    unfold generateCoeffs at h
    obtain ⟨h', _, hran⟩ | ⟨h', hr⟩ | ⟨u, h', hran⟩ | ⟨b, hr, hl, hz, h'⟩ := ran_of_batch hb <;> rw [h'] at h
    · cases h; exact hran
    · simp only [takeError_eq _ (e := .randomnessUnavailable) (by decide)] at h
      cases h
      exact .wiped ra th n secret rfl (.inl hs) hr
    · cases h; exact hran
    · simp only at h
      split at h
      · rename_i hp
        cases h
        exact .coeffsDone ra th n secret b rfl hs hr hl hz hp
      · exact absurd rfl (takeError_next.1 h).1
  · rename_i th n secret hs
    have hb : RunsBatch (.generate ra) s.stage n := hs ▸ .xs ra th n secret
    unfold generateXs at h
    obtain ⟨h', _, hran⟩ | ⟨h', hr⟩ | ⟨u, h', hran⟩ | ⟨b, hr, hl, hz, h'⟩ := ran_of_batch hb <;> rw [h'] at h
    · cases h; exact hran
    · simp only [takeError_eq _ (e := .randomnessUnavailable) (by decide)] at h
      cases h
      exact .wiped ra th n secret rfl (.inr hs) hr
    · cases h; exact hran
    · cases h; exact .shared ra th n secret b rfl hs hr hl hz
  all_goals rename_i hs; exact ran_of_generateStart h (by rw [hs]; nofun)

/-- Every next state of a command is of one of the forms of Ran. -/
theorem exec_cases {i : Instr} {s t : State} (h : exec i s = .next t) : Ran i s t := by
  cases i with
  | nop => cases h; exact .nothing rfl (not_draws _ nofun nofun nofun)
  | add rd ra rb =>
    exact ran_of_binary (op := fun a b => .ok (fadd a b)) h rfl (not_draws _ nofun nofun nofun) fun a b ha hb => .inl ⟨_, rfl, fadd_lt ha hb⟩
  | sub rd ra rb =>
    exact ran_of_binary (op := fun a b => .ok (fsub a b)) h rfl (not_draws _ nofun nofun nofun) fun a b ha hb => .inl ⟨_, rfl, fsub_lt ha hb⟩
  | mul rd ra rb =>
    exact ran_of_binary (op := fun a b => .ok (fmul a b)) h rfl (not_draws _ nofun nofun nofun) fun a b _ _ => .inl ⟨_, rfl, fmul_lt a b⟩
  | inv rd ra => exact ran_of_unary h rfl (not_draws _ nofun nofun nofun) fun a => finvChecked_cases _ a
  | div rd ra rb => exact ran_of_binary h rfl (not_draws _ nofun nofun nofun) fun a b _ _ => fdiv_cases _ a b
  | rand rd => exact ran_of_rand h
  | randnz rd => exact ran_of_randnz h
  | generate ra => exact ran_of_generate h
  | reconstruct rd => exact ran_of_reconstruct h

end Sys2Proof.Laws
end

