-- ==== Sys2Proof/Laws/PerInstr.lean ====
section
/-! SUPPORT. Statements about every command as syntax, one lemma per constructor. EncodeLegal: the assembled word of
every command is legal by both descriptions of Sys2Proof/WellFormed.lean (30_encoding.md R126, R128). -/

-- A kernel evaluation waits for every earlier proof; one after the other it holds no extra thread.
set_option Elab.async false

namespace Sys2Proof.Laws.EncodeLegal

/-- The assembled word of i meets the three conditions of R128 and matches a row of R126. -/
def Statement (i : Instr) : Prop := wellFormed (encode i) = true ∧ inTable (encode i) = true

/-- A mask of an assembled word, field by field. -/
theorem and_encodeFields (opc : Nat) (rd ra rb : RegIdx) (m : Word32) :
    encodeFields opc rd ra rb &&& m = (BitVec.ofNat 32 opc &&& m) ||| ((BitVec.ofNat 32 rd.val <<< 8) &&& m)
      ||| ((BitVec.ofNat 32 ra.val <<< 12) &&& m) ||| ((BitVec.ofNat 32 rb.val <<< 16) &&& m) := by
  unfold encodeFields
  ext i hi
  simp [Bool.and_or_distrib_right]

theorem opcode_encodeFields (opc : Nat) (rd ra rb : RegIdx) (h : opc < 256) :
    (encodeFields opc rd ra rb).extractLsb' 0 8 = BitVec.ofNat 8 opc := by
  have hm : (encodeFields opc rd ra rb &&& 0xFF).extractLsb' 0 8 = (encodeFields opc rd ra rb).extractLsb' 0 8 := by
    ext i hi
    have : (255#32).getLsbD i = true := by interval_cases i <;> rfl
    simp [this]
  have h1 : ∀ r : RegIdx, (BitVec.ofNat 32 r.val <<< 8) &&& 0xFF = 0 := by decide
  have h2 : ∀ r : RegIdx, (BitVec.ofNat 32 r.val <<< 12) &&& 0xFF = 0 := by decide
  have h3 : ∀ r : RegIdx, (BitVec.ofNat 32 r.val <<< 16) &&& 0xFF = 0 := by decide
  have h4 : ∀ o : Fin 256, (BitVec.ofNat 32 o.val &&& 0xFF).extractLsb' 0 8 = BitVec.ofNat 8 o.val := by
    decide +kernel
  rw [← hm, and_encodeFields, h1, h2, h3]
  simpa using h4 ⟨opc, h⟩

/-- What makes an assembled word of a row legal: its unused fields are 0. -/
theorem legal {opc : Nat} {rd ra rb : RegIdx} (row : OpcodeRow) (ho : opc < 256)
    (hrow : opcodeTable.find? (fun row => row.opc == BitVec.ofNat 8 opc) = some row) (hmem : row ∈ opcodeTable)
    (h1 : encodeFields opc rd ra rb &&& 0xFFF00000 = 0)
    (h2 : encodeFields opc rd ra rb &&& row.format.unusedMask = 0)
    (h3 : encodeFields opc rd ra rb &&& row.mask = row.matchWord) :
    wellFormed (encodeFields opc rd ra rb) = true ∧ inTable (encodeFields opc rd ra rb) = true := by
  have hr : rowOf (encodeFields opc rd ra rb) = some row := by rw [rowOf, opcode_encodeFields _ _ _ _ ho, hrow]
  refine ⟨?_, List.any_eq_true.2 ⟨row, hmem, by rw [h3]; exact beq_self_eq_true _⟩⟩
  simp [wellFormed, reservedClear, opcodeAssigned, unusedClear, hr, h2]
  exact h1

/-- A mask that a field does not reach gives 0 there. -/
theorem mask_r3 (opc : Nat) (rd ra rb : RegIdx) (m : Word32) (h : m &&& 0x000FFF00 = 0) :
    encodeFields opc rd ra rb &&& m = BitVec.ofNat 32 opc &&& m := by
  have hf : ∀ x : Word32, x &&& 0x000FFF00 = x → x &&& m = 0 := fun x hx => by
    rw [← hx, BitVec.and_assoc, BitVec.and_comm 0x000FFF00, h]
    exact BitVec.and_zero
  have h1 : ∀ r : RegIdx, (BitVec.ofNat 32 r.val <<< 8) &&& 0x000FFF00 = BitVec.ofNat 32 r.val <<< 8 := by decide
  have h2 : ∀ r : RegIdx, (BitVec.ofNat 32 r.val <<< 12) &&& 0x000FFF00 = BitVec.ofNat 32 r.val <<< 12 := by decide
  have h3 : ∀ r : RegIdx, (BitVec.ofNat 32 r.val <<< 16) &&& 0x000FFF00 = BitVec.ofNat 32 r.val <<< 16 := by decide
  rw [and_encodeFields, hf _ (h1 rd), hf _ (h2 ra), hf _ (h3 rb)]
  simp

theorem nop : Statement .nop := by unfold Statement; decide

theorem add (rd ra rb : RegIdx) : Statement (.add rd ra rb) :=
  legal ⟨0x01, "ADD", .r3, 0x00000001, 0xFFF000FF⟩ (by decide) rfl (by decide) (mask_r3 _ _ _ _ _ rfl)
    (mask_r3 _ _ _ _ _ rfl) (mask_r3 _ _ _ _ _ rfl)

theorem sub (rd ra rb : RegIdx) : Statement (.sub rd ra rb) :=
  legal ⟨0x02, "SUB", .r3, 0x00000002, 0xFFF000FF⟩ (by decide) rfl (by decide) (mask_r3 _ _ _ _ _ rfl)
    (mask_r3 _ _ _ _ _ rfl) (mask_r3 _ _ _ _ _ rfl)

theorem mul (rd ra rb : RegIdx) : Statement (.mul rd ra rb) :=
  legal ⟨0x03, "MUL", .r3, 0x00000003, 0xFFF000FF⟩ (by decide) rfl (by decide) (mask_r3 _ _ _ _ _ rfl)
    (mask_r3 _ _ _ _ _ rfl) (mask_r3 _ _ _ _ _ rfl)

theorem inv (rd ra : RegIdx) : Statement (.inv rd ra) := by unfold Statement; decide +kernel +revert

theorem div (rd ra rb : RegIdx) : Statement (.div rd ra rb) :=
  legal ⟨0x05, "DIV", .r3, 0x00000005, 0xFFF000FF⟩ (by decide) rfl (by decide) (mask_r3 _ _ _ _ _ rfl)
    (mask_r3 _ _ _ _ _ rfl) (mask_r3 _ _ _ _ _ rfl)

theorem rand (rd : RegIdx) : Statement (.rand rd) := by unfold Statement; decide +kernel +revert

theorem randnz (rd : RegIdx) : Statement (.randnz rd) := by unfold Statement; decide +kernel +revert

theorem generate (ra : RegIdx) : Statement (.generate ra) := by unfold Statement; decide +kernel +revert

theorem reconstruct (rd : RegIdx) : Statement (.reconstruct rd) := by unfold Statement; decide +kernel +revert

end Sys2Proof.Laws.EncodeLegal
end

