-- ==== Sys2Proof/Laws/Window.lean ====
section
/-! SUPPORT. The host's window: which location an address reaches, what one access can do to the state, and the bits of
the flag words. -/

namespace Sys2Proof.Laws

open Sys2Proof.Machine

/-! ### Addresses -/

theorem isWindow_locOfWord (w : Nat) : (locOfWord w).isWindow = true ↔ 0x40 ≤ w ∧ w < 0xD0 := by
  unfold locOfWord
  split
  · rename_i h
    split <;> simp [Loc.isWindow]; all_goals omega
  split
  · simp [Loc.isWindow]; omega
  split
  · simp [Loc.isWindow]; omega
  split
  · simp [Loc.isWindow]; omega
  · simp [Loc.isWindow]; omega

/-- The data windows are the byte offsets 0x100 to 0x33F. -/
theorem isWindow_iff (a : Addr) : (locOf a).isWindow = true ↔ 0x100 ≤ a.toNat ∧ a.toNat < 0x340 := by
  rw [locOf, isWindow_locOfWord]
  omega

theorem locOf_reserved {a : Addr} (h : (0x034 ≤ a.toNat ∧ a.toNat < 0x100) ∨ 0x340 ≤ a.toNat) : locOf a = .reserved := by
  unfold locOf locOfWord
  split
  · split <;> first | rfl | omega
  · rw [if_neg (by omega), if_neg (by omega), if_neg (by omega)]

theorem toNat_and_word (a : Addr) : (a &&& 0xFFC).toNat = a.toNat / 4 * 4 := by
  apply Nat.eq_of_testBit_eq
  intro i
  have h : a.toNat / 4 * 4 = (a.toNat >>> 2) <<< 2 := by rw [Nat.shiftRight_eq_div_pow, Nat.shiftLeft_eq]
  rw [h, BitVec.toNat_and, Nat.testBit_and, Nat.testBit_shiftLeft, Nat.testBit_shiftRight]
  by_cases h2 : 2 ≤ i
  · rw [show 2 + (i - 2) = i by omega]
    by_cases hi : i < 12
    · have : Nat.testBit 4092 i = true := by interval_cases i <;> rfl
      simp [h2, this]
    · have : a.toNat.testBit i = false := Nat.testBit_lt_two_pow (lt_of_lt_of_le a.isLt (Nat.pow_le_pow_right (by omega) (by omega)))
      simp [this]
  · have : Nat.testBit 4092 i = false := by interval_cases i <;> rfl
    simp [h2, this]

/-- Address bits 1:0 are ignored. -/
theorem locOf_and (a : Addr) : locOf (a &&& 0xFFC) = locOf a := by
  unfold locOf
  rw [toNat_and_word]
  congr 1
  omega

theorem locOf_freg {a : Addr} {r : RegIdx} {k : Fin 8} (h : a.toNat = 0x100 + 0x20 * r.val + 4 * k.val) :
    locOf a = .freg r k := by
  unfold locOf locOfWord
  rw [if_neg (by omega), if_pos (by omega)]
  congr 1 <;> apply Fin.ext <;> simp only [Fin.ofNat] <;> omega

theorem locOf_sx {a : Addr} {k : Fin 8} (h : a.toNat = 0x300 + 4 * k.val) : locOf a = .sx k := by
  unfold locOf locOfWord
  have hk : Fin.ofNat 8 (a.toNat / 4 - 0xC0) = k := Fin.ext (by simp only [Fin.ofNat]; omega)
  rw [if_neg (by omega), if_neg (by omega), if_pos (by omega), hk]

theorem locOf_sy {a : Addr} {k : Fin 8} (h : a.toNat = 0x320 + 4 * k.val) : locOf a = .sy k := by
  unfold locOf locOfWord
  have hk : Fin.ofNat 8 (a.toNat / 4 - 0xC8) = k := Fin.ext (by simp only [Fin.ofNat]; omega)
  rw [if_neg (by omega), if_neg (by omega), if_neg (by omega), if_pos (by omega), hk]

/-! ### The bits of the flag words -/

theorem bitAt_bit (m : Nat) (b : Bool) (n : Nat) (hm : m < 32) : (bitAt m b).getLsbD n = (b && decide (n = m)) := by
  unfold bitAt
  cases b
  · simp
  · rw [if_pos rfl, BitVec.getLsbD_ofNat, Nat.testBit_two_pow]
    by_cases h : n = m
    · subst h; simp [hm]
    · simp [h, Ne.symm h]

/-! ### What one access can do -/

/-- A read that is not blocked gives its value to the host and does nothing else. -/
theorem hostRead_open {a : Addr} {s : State} (h : s.phase = .idle ∨ (locOf a).isWindow = false) :
    hostAccess (.read a) s = toHost (locValue (locOf a) s) s := by
  have : (s.busy && (locOf a).isWindow) = false := by
    rcases h with h | h
    · simp [(busy_false_iff s).2 h]
    · simp [h]
  simp [hostAccess, hostRead, this]

/-- A blocked read returns 0 and sets OVERRUN. -/
theorem hostRead_blocked {a : Addr} {s : State} (hp : s.phase = .exec) (h : (locOf a).isWindow = true) :
    hostAccess (.read a) s = toHost 0 (setOverrun s) := by
  simp [hostAccess, hostRead, (busy_iff s).2 hp, h]

theorem unlessBusy_idle {s : State} (t : State) (h : s.phase = .idle) : unlessBusy s t = t := by
  simp [unlessBusy, (busy_false_iff s).2 h]

theorem unlessBusy_exec {s : State} (t : State) (h : s.phase = .exec) : unlessBusy s t = setOverrun s := by
  simp [unlessBusy, (busy_iff s).2 h]

/-- No access changes the parameters, the draw numbering or the turns to come. -/
theorem hostAccess_params (a : Access) (s : State) :
    (hostAccess a s).params = s.params ∧ (hostAccess a s).drawId = s.drawId ∧
    (hostAccess a s).schedule = s.schedule ∧ (hostAccess a s).cycle = s.cycle ∧
    (hostAccess a s).freeTurns = s.freeTurns := by
  cases a with
  | read a =>
    simp only [hostAccess, hostRead]
    split <;> exact ⟨rfl, rfl, rfl, rfl, rfl⟩
  | write a v =>
    simp only [hostAccess]
    cases locOf a <;> simp only [writeLoc, unlessBusy, writeCmd, writeSX, writeSY] <;>
      first
      | exact ⟨trivial, trivial, trivial, trivial, trivial⟩
      | exact ⟨rfl, rfl, rfl, rfl, rfl⟩
      | (split; all_goals first | exact ⟨rfl, rfl, rfl, rfl, rfl⟩ | (split <;> exact ⟨rfl, rfl, rfl, rfl, rfl⟩))

end Sys2Proof.Laws
end

