-- ==== Sys2Proof/Tests/Slice0.lean ====
section
/-! SUPPORT. The model's own tests. Expected values are those of spec/95_test_vectors.md or of the examples in the rules,
named at each test; none was taken from this model. -/

-- One theorem after the other: a kernel evaluation waits for every earlier proof, and each waiting theorem would hold
-- a thread of its own.
set_option Elab.async false

namespace Sys2Proof.Tests

open Sys2Proof.Machine

/-- A step answers a next state with a property. -/
def nextHas (o : Host.Outcome State Fault Refusal) (p : State → Bool) : Bool :=
  match o with
  | .next t    => p t
  | .fault _   => false
  | .refused _ => false

/-- The 32 big-endian bytes of an integer, `bytes(v)` of spec/95_test_vectors.md section 0. -/
def bytes (v : Nat) : Vector Byte 32 := Vector.ofFn (fun i => BitVec.ofNat 8 (v / 256 ^ (31 - i.val)))

/-- Reset with raw patterns in F1 and F2. -/
def regs12 (a b : Nat) : State := writeRaw 2 (BitVec.ofNat 256 b) (writeRaw 1 (BitVec.ofNat 256 a) State.reset)

/-- One core turn of command word w. -/
def run1 (w : Word32) (s : State) : Host.Outcome State Fault Refusal := step (placeCommand w s)

/-- F3 = v, STATUS and ERRCODE as given. -/
def ended (v : Nat) (status code : Word32) (t : State) : Bool :=
  (readField 3 t).toNat == v && statusWord t == status && errcodeWord t == code

/-! ### Well-formed words: one ill-formed word for each check of 30_encoding.md R128 (V-DEC-4, V-DEC-2, V-DEC-6) -/

theorem test_wf_reserved : reservedClear 0x00100001 = false ∧ wellFormed 0x00100001 = false := by decide
theorem test_wf_opcode : opcodeAssigned 0x00000006 = false ∧ wellFormed 0x00000006 = false := by decide
theorem test_wf_unused : unusedClear 0x00011304 = false ∧ wellFormed 0x00011304 = false := by decide
theorem test_wf_legal : wellFormed 0x000FFF01 = true ∧ inTable 0x000FFF01 = true := by decide

/-! ### Decoding: words written out in the spec (30_encoding.md R130 and the rules' examples) -/

theorem test_decode_nop : decode 0x00000000 = some .nop := by decide
theorem test_decode_add : decode 0x00021301 = some (.add 3 1 2) := by decide
theorem test_decode_sub : decode 0x00021302 = some (.sub 3 1 2) := by decide
theorem test_decode_mul : decode 0x00024303 = some (.mul 3 4 2) := by decide
theorem test_decode_inv : decode 0x00001204 = some (.inv 2 1) := by decide
theorem test_decode_div : decode 0x00041505 = some (.div 5 1 4) := by decide
theorem test_decode_rand : decode 0x00000510 = some (.rand 5) := by decide
theorem test_decode_randnz : decode 0x00000711 = some (.randnz 7) := by decide
theorem test_decode_generate : decode 0x00001020 = some (.generate 1) := by decide
theorem test_decode_reconstruct : decode 0x00000421 = some (.reconstruct 4) := by decide

/-- V-DEC-4, V-DEC-2, V-DEC-5 to V-DEC-10: rejected, and by which name. -/
theorem test_decode_rejects :
    decodeWord 0x00100001 = .error .reservedBits ∧ decodeWord 0x00000006 = .error .unassignedOpcode ∧
    decodeWord 0x00000100 = .error .unusedField ∧ decodeWord 0x00011304 = .error .unusedField ∧
    decodeWord 0x00001010 = .error .unusedField ∧ decodeWord 0x00000120 = .error .unusedField ∧
    decodeWord 0x00020221 = .error .unusedField ∧ decodeWord 0xFFFFFFFF = .error .reservedBits := by decide

theorem test_encode : encode (.sub 3 1 2) = 0x00021302 ∧ encode (.inv 3 1) = 0x00001304 ∧
    encode (.generate 1) = 0x00001020 ∧ encode (.reconstruct 2) = 0x00000221 := by decide

theorem test_table_word : decodeTableWord 32 0x00021301 = some (.add 3 1 2) := by decide

/-! ### Commands, one core turn each -/

/-- V-DEC-1 and 44_control.md R254's example. -/
theorem test_nop : nextHas (run1 0 State.reset) (fun t => statusWord t == 2 && t.entropyCount == 0) = true := by
  decide

/-- V-DEC-2 and V-DEC-6. -/
theorem test_illegal :
    nextHas (run1 0x00000006 State.reset) (fun t => statusWord t == 6 && errcodeWord t == 5 && t.cur == 6) = true := by
  decide

/-- V-ADD-2 and V-ADD-6. -/
theorem test_add_wraps :
    nextHas (run1 0x00021301 (regs12 (PRIME - 1) 1)) (ended 0 2 0) = true ∧
    nextHas (run1 0x00021301 (regs12 (2 ^ 255) (2 ^ 255))) (ended 0x1000003D1 2 0) = true := by decide +kernel

/-- V-ADD-8, V-ALU-S4. -/
theorem test_add_malformed :
    nextHas (run1 0x00021301 (regs12 0 PRIME)) (ended 0 6 3) = true ∧
    nextHas (run1 0x00001101 (regs12 PRIME 0)) (fun t => readField 1 t == BitVec.ofNat 256 PRIME) = true := by
  decide +kernel

/-- V-SUB-2 and V-SUB-5. -/
theorem test_sub :
    nextHas (run1 0x00021302 (regs12 3 5)) (ended (PRIME - 2) 2 0) = true ∧
    nextHas (run1 0x00021302 (regs12 0 (PRIME - 1))) (ended 1 2 0) = true := by decide +kernel

/-- V-MUL-4 and V-ALU-S3. -/
theorem test_mul :
    nextHas (run1 0x00021303 (regs12 (2 ^ 128) (2 ^ 128))) (ended 0x1000003D1 2 0) = true ∧
    nextHas (run1 0x00021203 (regs12 3 5)) (fun t => readField 2 t == 15 && readField 1 t == 3) = true := by
  decide +kernel

/-- V-INV-5 under both algorithms. -/
theorem test_inv :
    nextHas (run1 0x00001304 (regs12 0xABCDEFDEADBEEF 0))
      (ended 0xDF0D5F93F9A50A05F6FE7C6ED420C72D14952ECC5CC756C9D9B012BBA312E464 2 0) = true ∧
    nextHas (run1 0x00001304 { regs12 0xABCDEFDEADBEEF 0 with params := { Params.default with invAlgo := .fermat } })
      (ended 0xDF0D5F93F9A50A05F6FE7C6ED420C72D14952ECC5CC756C9D9B012BBA312E464 2 0) = true := by decide +kernel

/-- V-INV-7, V-INV-8: the canonicity check comes before the zero test. -/
theorem test_inv_errors :
    nextHas (run1 0x00001304 (regs12 0 0)) (ended 0 6 2) = true ∧
    nextHas (run1 0x00001304 (regs12 PRIME 0)) (ended 0 6 3) = true := by decide +kernel

/-- V-DIV-6 and V-DIV-7. -/
theorem test_div :
    nextHas (run1 0x00021305 (regs12 0xABCDEFDEADBEEF 3))
      (ended 0x555555555555555555555555555555555555555555555555558E99FA4A39E90A 2 0) = true ∧
    nextHas (run1 0x00021305 (regs12 PRIME 0)) (ended 0 6 3) = true := by decide +kernel

/-! ### Draws: a state in which the draw has just been answered, then one core turn -/

/-- A running command of word w at a stage, with index i and one answer to use. -/
def answered (w : Word32) (st : Stage) (i : Nat) (r : Reply) (s : State) : State :=
  { placeCommand w s with stage := st, loopIdx := i, reply := some r }

/-- V-RND-3, V-RND-6, V-RND-7: RAND f5. -/
theorem test_rand :
    nextHas (step (answered 0x00000510 .sampling 0 (.ok (bytes (2 ^ 256 - 1))) State.reset))
      (fun t => (readField 5 t).toNat == 0x1000003D0 && statusWord t == 2 && t.entropyCount == 1) = true ∧
    nextHas (step (answered 0x00000510 .sampling 0 (.ok (bytes (2 ^ 248))) State.reset))
      (fun t => (readField 5 t).toNat == 2 ^ 248) = true := by decide +kernel

/-- V-RND-8: F5 keeps 0x55, nothing counted. -/
theorem test_rand_fail :
    nextHas (step (answered 0x00000510 .sampling 0 .fail (writeRaw 5 0x55 State.reset)))
      (fun t => readField 5 t == 0x55 && statusWord t == 6 && errcodeWord t == 4 && t.entropyCount == 0) = true := by
  decide +kernel

/-- V-RNZ-1: bytes(PRIME) is rejected and a new draw issued; bytes(2) then gives 2, two draws counted. -/
theorem test_randnz :
    nextHas (step (answered 0x00000611 .batchOne 0 (.ok (bytes PRIME)) State.reset))
      (fun t => t.ereq == .pending && t.ndraws == 1 && statusWord t == 1) = true ∧
    nextHas (step { answered 0x00000611 .batchOne 0 (.ok (bytes 2)) State.reset with ndraws := 1 })
      (fun t => readField 6 t == 2 && statusWord t == 2 && t.entropyCount == 2) = true := by decide +kernel

/-- V-RNZ-3: a FAIL after one draw. -/
theorem test_randnz_fail :
    nextHas (step { answered 0x00000611 .batchOne 0 .fail (writeRaw 6 0x66 State.reset) with ndraws := 1 })
      (fun t => readField 6 t == 0x66 && errcodeWord t == 4 && t.entropyCount == 1) = true := by decide +kernel

/-- Reset with a secret in F1, GEN_T and GEN_N. -/
def gen (secret : Word256) (t n : Word32) : State := { writeRaw 1 secret State.reset with genT := t, genN := n }

/-- V-GEN-4, V-GEN-8, V-GEN-9, V-GEN-10: the checks and their order. -/
theorem test_generate_checks :
    nextHas (run1 0x00001020 (gen 7 1 3)) (fun t => errcodeWord t == 1) = true ∧
    nextHas (run1 0x00001020 (gen 7 258 257)) (fun t => errcodeWord t == 1) = true ∧
    nextHas (run1 0x00001020 (gen 7 2 0xFFFFFFFF)) (fun t => errcodeWord t == 6) = true ∧
    nextHas (run1 0x00001020 (gen (BitVec.ofNat 256 PRIME) 2 2)) (fun t => errcodeWord t == 3) = true := by
  decide +kernel

/-- V-GEN-12, last answer: A = [7, 9], the x batch 1, 2, 3 complete. -/
theorem test_generate_shares :
    nextHas (step { answered 0x00001020 (.xs 2 3 7) 2 (.ok (bytes 3)) (gen 7 2 3) with
        coeffA := [(0, 7), (1, 9)], batchBuf := [(0, 1), (1, 2)], ndraws := 6 })
      (fun t => t.sx == [(0, 1), (1, 2), (2, 3)] && t.sy == [(0, 0x10), (1, 0x19), (2, 0x22)] && t.coeffA == []
        && t.entropyCount == 7 && readField 1 t == 7) = true := by decide +kernel

/-- Shares (x, y) from entry 0, REC_BASE and REC_COUNT. -/
def rec (shares : List (Word256 × Word256)) (base count : Word32) : State :=
  { State.reset with
    sx := Memory.fill [] (fun j => (shares.getD j (0, 0)).1) shares.length
    sy := Memory.fill [] (fun j => (shares.getD j (0, 0)).2) shares.length
    recBase := base, recCount := count }

/-- V-REC-1, V-REC-3, V-REC-12, V-REC-9. -/
theorem test_reconstruct :
    nextHas (run1 0x00000221 (rec [(1, 0x1239), (2, 0x123E)] 0 2)) (fun t => readField 2 t == 0x1234) = true ∧
    nextHas (run1 0x00000221 (rec [(1, 7), (2, 9), (3, 0xD)] 1 2)) (fun t => readField 2 t == 1) = true ∧
    nextHas (run1 0x00000221 (rec [(0, 0x42), (5, 0x77), (9, 0x11)] 0 3)) (fun t => readField 2 t == 0x42) = true ∧
    nextHas (run1 0x00000221 (rec [(1, 7)] 256 0)) (fun t => statusWord t == 2 && readField 2 t == 0) = true := by
  decide +kernel

/-- V-REC-6, V-REC-14, V-REC-10, V-REC-16. -/
theorem test_reconstruct_errors :
    nextHas (run1 0x00000221 (rec [(1, 7), (2, 9), (1, 5)] 0 3)) (fun t => errcodeWord t == 2) = true ∧
    nextHas (run1 0x00000221 (rec [(BitVec.ofNat 256 PRIME, 7), (BitVec.ofNat 256 PRIME, 7)] 0 2))
      (fun t => errcodeWord t == 3) = true ∧
    nextHas (run1 0x00000221 (rec [] 257 0)) (fun t => errcodeWord t == 6) = true ∧
    nextHas (run1 0x00000221 (rec [] 0xFFFFFFFF 2)) (fun t => errcodeWord t == 6) = true := by decide +kernel

/-! ### The host's window, one access each -/

/-- One host access as a step. -/
def host (a : Access) (s : State) : Host.Outcome State Fault Refusal := step { s with schedule := [.host a] }

/-- What the host reads there. -/
def reads (addr : Addr) (s : State) (v : Word32) : Bool := nextHas (host (.read addr) s) (fun t => t.hostData == v)

/-- V-HST-1, V-HST-2, V-HST-4. -/
theorem test_read_constants :
    reads 0x000 State.reset 0x53535343 = true ∧ reads 0x004 State.reset 0x00100100 = true ∧
    reads 0x034 State.reset 0 = true ∧ reads 0xFFC State.reset 0 = true := by decide

/-- V-HST-6, V-HST-7: address bits 1:0 ignored, word 7 of F1. -/
theorem test_freg_write :
    nextHas (host (.write 0x102 0x12345678) State.reset) (fun t => readField 0 t == 0x12345678) = true ∧
    nextHas (host (.write 0x13C 0x80000000) State.reset) (fun t => (readField 1 t).toNat == 2 ^ 255) = true := by
  decide +kernel

/-- V-HST-8, V-HST-9. -/
theorem test_share_window :
    nextHas (host (.write 0x300 9) { State.reset with sidx := 5 }) (fun t => t.sx == [(5, 9)]) = true ∧
    nextHas (host (.write 0x300 1) { State.reset with sidx := 256 }) (fun t => t.sx == [] && statusWord t == 0) = true ∧
    reads 0x320 { State.reset with sidx := 5, sy := [(5, 0xA)] } 0xA = true := by decide +kernel

/-- V-HST-10 (W1C of ERR clears ERRCODE) and V-HST-11 (BUSY and FATAL are read only). -/
theorem test_status_write :
    nextHas (host (.write 0x00C 4) { State.reset with done := true, err := true, errcode := some .illegalCommand })
      (fun t => statusWord t == 2 && errcodeWord t == 0) = true ∧
    nextHas (host (.write 0x00C 0x1F) { State.reset with fatal := true, overrun := true })
      (fun t => statusWord t == 0x10) = true := by decide

/-- V-HST-13: IRQ from ERR and ERR_IE. -/
theorem test_irq :
    nextHas (run1 0x00000006 { State.reset with errIE := true }) (fun t => t.irq) = true := by decide

/-- V-HST-14, V-HST-15. -/
theorem test_soft_reset :
    nextHas (host (.write 0x008 1) (placeCommand 0x00000711 (regs12 3 4))) (fun t => t == State.reset) = true ∧
    nextHas (host (.write 0x008 2) (regs12 3 4)) (fun t => t == regs12 3 4) = true := by decide +kernel

/-- Program P4: a CMD write and a window read while busy are blocked, CMD reads the accepted word. -/
theorem test_blocked :
    nextHas (host (.write 0x018 0) (placeCommand 0x00001020 (gen 7 2 3)))
      (fun t => t.cur == 0x00001020 && statusWord t == 9) = true ∧
    nextHas (host (.read 0x120) (placeCommand 0x00001020 (gen 7 2 3)))
      (fun t => t.hostData == 0 && statusWord t == 9) = true := by decide +kernel

/-- Program P5: the answer to a draw abandoned by a reset reaches no state (70_reset_and_hazards.md R302). -/
theorem test_late_answer :
    nextHas (step { State.reset with drawId := 1, schedule := [.entropy (some 1) (.ok (bytes 0x42))] })
      (fun t => t == { State.reset with drawId := 1 }) = true := by decide +kernel

/-! ### The next step after placing a command runs it, from reset -/

theorem test_fetch_word :
    nextHas (step (State.withFetchWord State.reset 32 0x000FFF01)) (fun t => statusWord t == 2) = true ∧
    nextHas (step (State.withFetchWord State.reset 32 0x00000711)) (fun t => t.ereq == .pending) = true := by decide

/-! ### Witnesses: for each obligation with hypotheses, concrete inputs that meet them together, clause by clause -/

/-- A next state with a property, from its test. -/
theorem exists_next {o : Host.Outcome State Fault Refusal} {p : State → Bool} (h : nextHas o p = true) :
    ∃ t, o = .next t ∧ p t = true := by
  cases o with
  | next t => exact ⟨t, rfl, h⟩
  | fault f => cases h
  | refused r => cases h

/-- A busy core at the start of command w, no turn listed. -/
def busyAt (w : Word32) (s : State) : State := acceptCommand w s

/-- A command of word w that waits at stage st for a draw (no reply), or has its reply. -/
def inDraw (w : Word32) (st : Stage) (i : Nat) (r : Option Reply) (s : State) : State :=
  { acceptCommand w s with
    stage := st, loopIdx := i, reply := r, drawId := 1, ereq := if r = none then .pending else .none }

/-- The core's turns for ever. -/
def coreOnly (s : State) : State := { s with cycle := [.core] }

theorem test_witness_StepRunsLatchedCommand :
    (let s := coreOnly (busyAt 0x00021302 State.reset)
     s.phase = .exec ∧ decode s.cur = some (.sub 3 1 2) ∧ s.schedule = [] ∧ s.cycle = .core :: [] ∧ upcoming s = .core) ∧
    (let s := placeCommand 0x00021302 State.reset
     s.phase = .exec ∧ decode s.cur = some (.sub 3 1 2) ∧ s.schedule = .core :: [] ∧ upcoming s = .core) := by decide

theorem test_witness_IllegalWordAborts :
    let s := placeCommand 0xFFFFFFFF State.reset
    s.phase = .exec ∧ inTable s.cur = false ∧ s.ndraws = 0 ∧ upcoming s = .core := by decide

theorem test_witness_EncodeInvertsDecode : decode 0x000FFF05 = some (.div 15 15 15) := by decide

/-- Sources at the two ends of the canonical range; for SUB both orders. -/
theorem test_witness_AddResult_SubResult_MulResult :
    (readField 1 (regs12 (PRIME - 1) 0)).toNat = PRIME - 1 ∧ (readField 2 (regs12 (PRIME - 1) 0)).toNat = 0 ∧
    (readField 1 (regs12 0 (PRIME - 1))).toNat = 0 ∧ (readField 2 (regs12 0 (PRIME - 1))).toNat = PRIME - 1 ∧
    PRIME - 1 < PRIME ∧ 0 < PRIME := by decide +kernel

theorem test_witness_InvResult_DivResult :
    (readField 1 (regs12 1 (PRIME - 1))).toNat < PRIME ∧ (readField 1 (regs12 1 (PRIME - 1))).toNat ≠ 0 ∧
    (readField 2 (regs12 1 (PRIME - 1))).toNat < PRIME ∧ (readField 2 (regs12 1 (PRIME - 1))).toNat ≠ 0 := by
  decide +kernel

/-- Each source malformed at PRIME itself; GENERATE's checks passed at t = n = 2; a window that ends at MAX_SHARES. -/
theorem test_witness_MalformedInputAborts :
    PRIME ≤ (readField 1 (regs12 PRIME 0)).toNat ∧ PRIME ≤ (readField 2 (regs12 0 PRIME)).toNat ∧
    (let s := gen (BitVec.ofNat 256 PRIME) 2 2
     PRIME ≤ (readField 1 s).toNat ∧ s.stage = .start ∧ 1 < s.genT.toNat ∧ s.genT.toNat ≤ s.genN.toNat ∧
      s.genN.toNat ≤ s.params.maxShares) ∧
    (let s := { State.reset with sy := [(255, BitVec.ofNat 256 PRIME)], recBase := 255, recCount := 1 }
     s.recBase.toNat + s.recCount.toNat ≤ s.params.maxShares ∧
      PRIME ≤ (Memory.read s.sy (s.recBase.toNat + 0)).toNat) := by decide +kernel

theorem test_witness_DivisionByZeroAborts :
    readField 1 (regs12 0 0) = 0 ∧
    ((readField 1 (regs12 (PRIME - 1) 0)).toNat < PRIME ∧ readField 2 (regs12 (PRIME - 1) 0) = 0) ∧
    (let s := rec [(5, 1), (5, 2)] 0 2
     s.recBase.toNat + s.recCount.toNat ≤ s.params.maxShares ∧
      (∀ j < s.recCount.toNat, (Memory.read s.sx (s.recBase.toNat + j)).toNat < PRIME ∧
        (Memory.read s.sy (s.recBase.toNat + j)).toNat < PRIME) ∧
      Memory.read s.sx (s.recBase.toNat + 0) = Memory.read s.sx (s.recBase.toNat + 1)) ∧
    (∃ t, exec (.generate 1) (gen 0 2 2) = .next t) ∧ (gen 0 2 2).errcode = none :=
  ⟨by decide +kernel, by decide +kernel, by decide +kernel,
    (exists_next (p := fun _ => true) (by decide +kernel)).imp fun _ h => h.1, rfl⟩

theorem test_witness_InverseEnginesAgree : 1 ≤ PRIME - 1 ∧ PRIME - 1 < PRIME ∧ 1 < PRIME := by decide +kernel

theorem test_witness_FieldLaws : PRIME - 1 < PRIME ∧ 0 < PRIME ∧ PRIME - 1 ≠ 0 := by decide +kernel

/-- A command of each of the four batches and of RAND, at its start and waiting. -/
theorem test_witness_DrawIssuedAndAwaited :
    State.reset.stage = .start ∧ Draws (.rand 5) .sampling ∧ Draws (.randnz 5) .batchOne ∧
    Draws (.generate 1) (.coeffs 2 2 7) ∧ Draws (.generate 1) (.xs 2 2 7) ∧
    (inDraw 0x00000510 .sampling 0 none State.reset).reply = none :=
  ⟨rfl, .rand 5, .batch (.randnz 5), .batch (.coeffs 1 2 2 7), .batch (.xs 1 2 2 7), rfl⟩

theorem test_witness_RandCompletes :
    let s := inDraw 0x00000510 .sampling 0 (some (.ok (bytes PRIME))) State.reset
    s.stage = .sampling ∧ s.reply = some (.ok (bytes PRIME)) := ⟨rfl, rfl⟩

theorem test_witness_RandnzCompletes :
    let s := inDraw 0x00000611 .batchOne 0 (some (.ok (bytes 1))) State.reset
    s.stage = .batchOne ∧ s.loopIdx = 0 ∧ Memory.wf s.batchBuf = true ∧ s.reply = some (.ok (bytes 1)) ∧
    (∑ i : Fin 32, ((bytes 1)[i]).toNat * 256 ^ (31 - i.val)) % PRIME ≠ 0 := ⟨rfl, rfl, rfl, rfl, by decide +kernel⟩

/-- A coefficient batch of 2 at its first index, and a RANDNZ batch whose one element is 0. -/
theorem test_witness_BatchContinuesOrRedraws :
    (let s := inDraw 0x00001020 (.coeffs 3 3 7) 0 (some (.ok (bytes 0))) (gen 7 3 3)
     RunsBatch (.generate 1) s.stage 2 ∧ s.reply = some (.ok (bytes 0)) ∧ s.loopIdx + 1 < 2) ∧
    (let s := inDraw 0x00000611 .batchOne 0 (some (.ok (bytes PRIME))) State.reset
     RunsBatch (.randnz 6) s.stage 1 ∧ s.reply = some (.ok (bytes PRIME)) ∧ s.loopIdx + 1 = 1 ∧
      Memory.read (Memory.write s.batchBuf s.loopIdx (BitVec.ofNat 256 (sample (bytes PRIME)))) 0 = 0) :=
  ⟨⟨.coeffs 1 3 3 7, rfl, by decide⟩, ⟨.randnz 6, rfl, rfl, by decide +kernel⟩⟩

theorem test_witness_RandomnessUnavailableAborts :
    Draws (.rand 5) (inDraw 0x00000510 .sampling 0 (some .fail) State.reset).stage ∧
    Draws (.generate 1) (inDraw 0x00001020 (.xs 2 2 7) 1 (some .fail) (gen 7 2 2)).stage ∧
    (inDraw 0x00001020 (.xs 2 2 7) 1 (some .fail) (gen 7 2 2)).reply = some .fail ∧
    (inDraw 0x00001020 (.xs 2 2 7) 1 (some .fail) (gen 7 2 2)).fatal = false :=
  ⟨.rand 5, .batch (.xs 1 2 2 7), rfl, rfl⟩

theorem test_witness_PolyEvalIsThePolynomial :
    1 ≤ 1 ∧ (∀ i < 1, (fun _ : Nat => PRIME - 1) i < PRIME) ∧ PRIME - 1 < PRIME := by decide +kernel

/-- The four clauses at their boundaries: t = 1; n = t - 1; n = MAX_SHARES + 1; a secret of PRIME; t = n = MAX_SHARES. -/
theorem test_witness_GenerateChecksBeforeDrawing :
    (∀ s ∈ [gen 7 1 3, gen 7 3 2, gen 7 2 257, gen (BitVec.ofNat 256 PRIME) 2 2, gen (BitVec.ofNat 256 (PRIME - 1)) 256 256],
      s.stage = .start ∧ s.ndraws = 0) ∧
    (gen 7 1 3).genT.toNat ≤ 1 ∧ (gen 7 3 2).genN.toNat < (gen 7 3 2).genT.toNat ∧
    (gen 7 2 257).params.maxShares < (gen 7 2 257).genN.toNat ∧
    PRIME ≤ (readField 1 (gen (BitVec.ofNat 256 PRIME) 2 2)).toNat ∧
    (let s := gen (BitVec.ofNat 256 (PRIME - 1)) 256 256
     1 < s.genT.toNat ∧ s.genT.toNat ≤ s.genN.toNat ∧ s.genN.toNat ≤ s.params.maxShares ∧
      (readField 1 s).toNat < PRIME) := by decide +kernel

/-- GENERATE f1 with t = n = 2 and secret 7, its coefficient batch about to end with 9. -/
def genCoeffs : State :=
  { inDraw 0x00001020 (.coeffs 2 2 7) 0 (some (.ok (bytes 9))) (gen 7 2 2) with coeffA := [(0, 7)] }

/-- The same command, coefficient 9 loaded, its x batch 1, 2 about to end. -/
def genXs : State :=
  { inDraw 0x00001020 (.xs 2 2 7) 1 (some (.ok (bytes 2))) (gen 7 2 2) with
    coeffA := [(0, 7), (1, 9)], batchBuf := [(0, 1)], ndraws := 2, schedule := [.core] }

/-- Every entry of a store is canonical when every listed one is. -/
theorem canon_read {m : Memory} (h : m.all (fun p => canon p.2.toNat) = true) (i : Nat) :
    canon (Memory.read m i).toNat = true := by
  induction m with
  | nil => exact (by decide +kernel : canon 0 = true)
  | cons q m ih =>
    simp only [List.all_cons, Bool.and_eq_true] at h
    unfold Memory.read
    split
    · exact h.1
    · exact ih h.2

theorem generating_of {s : State} (h : decode s.cur = some (.generate 1) ∧ readField 1 s = 7 ∧ s.genT = 2 ∧ s.genN = 2 ∧
    s.params = Params.default ∧ Memory.read s.coeffA 0 = 7) : Generating 2 2 7 s := by
  obtain ⟨h1, h2, h3, h4, h5, h6⟩ := h
  exact ⟨⟨1, h1, h2⟩, by rw [h3]; rfl, by rw [h4]; rfl, by decide, by decide, by rw [h5]; decide, by decide +kernel, h6⟩

theorem inv_genCoeffs : MachineInv genCoeffs where
  params := by decide
  stores := ⟨rfl, rfl, rfl, rfl⟩
  idle := nofun
  flags := ⟨rfl, fun _ => ⟨rfl, rfl⟩, rfl, nofun⟩
  request := ⟨by decide, fun _ => nofun⟩
  progress := ⟨generating_of (by decide +kernel), by decide⟩
  batch := canon_read rfl

theorem inv_genXs : MachineInv genXs where
  params := by decide
  stores := ⟨rfl, rfl, rfl, by decide +kernel⟩
  idle := nofun
  flags := ⟨rfl, fun _ => ⟨rfl, rfl⟩, rfl, nofun⟩
  request := ⟨by decide, fun _ => nofun⟩
  progress := ⟨generating_of (by decide +kernel), by decide, fun i h1 h2 => by
    obtain rfl : i = 1 := by omega
    decide +kernel⟩
  batch := canon_read (by decide +kernel)

/-- A busy state at the start of a command, from reset with registers set, meets the invariant. -/
theorem inv_busyAt (w : Word32) (f : Vector Word256 16) (t n : Word32) (c : List Turn) :
    MachineInv (busyAt w { State.reset with f := f, genT := t, genN := n, cycle := c }) where
  params := (by decide : Params.default.legal)
  stores := ⟨rfl, rfl, rfl, rfl⟩
  idle := nofun
  flags := ⟨rfl, fun _ => ⟨rfl, rfl⟩, rfl, nofun⟩
  request := ⟨⟨nofun, fun h => absurd rfl h.1⟩, fun h => absurd rfl h⟩
  progress := ⟨rfl, rfl, rfl⟩
  batch := canon_read rfl

theorem test_witness_GenerateLoadsCoefficients :
    MachineInv genCoeffs ∧ genCoeffs.stage = .coeffs 2 2 7 ∧ genCoeffs.reply = some (.ok (bytes 9)) ∧
    genCoeffs.loopIdx + 1 = 2 - 1 ∧
    (∀ j < 2 - 1,
      Memory.read (Memory.write genCoeffs.batchBuf genCoeffs.loopIdx (BitVec.ofNat 256 (sample (bytes 9)))) j ≠ 0) :=
  ⟨inv_genCoeffs, rfl, rfl, rfl, by decide +kernel⟩

theorem test_witness_GenerateWritesShares :
    MachineInv genXs ∧ genXs.stage = .xs 2 2 7 ∧ genXs.reply = some (.ok (bytes 2)) ∧ genXs.loopIdx + 1 = 2 ∧
    (∀ j < 2, Memory.read (Memory.write genXs.batchBuf genXs.loopIdx (BitVec.ofNat 256 (sample (bytes 2)))) j ≠ 0) :=
  ⟨inv_genXs, rfl, rfl, rfl, by decide +kernel⟩

/-- A state no run reaches, in which the P(0) check fails: A[0] is not the secret. -/
def badSecret : State := { genCoeffs with coeffA := [(0, 8)] }

/-- The outcome is a fault. -/
def faults (o : Host.Outcome State Fault Refusal) : Bool :=
  match o with
  | .next _    => false
  | .fault _   => true
  | .refused _ => false

theorem exists_fault {o : Host.Outcome State Fault Refusal} (h : faults o = true) :
    ∃ left, o = .fault (.internalFault left) := by
  cases o with
  | next t => cases h
  | fault f => cases f; exact ⟨_, rfl⟩
  | refused r => cases h

theorem test_witness_GenerateAbortLeaves :
    (∃ u, exec (.generate 1) (gen 7 1 3) = .next u ∧ (u.errcode == some .invalidArgument) = true) ∧
    (gen 7 1 3).errcode = none ∧
    (let s := { genXs with reply := some .fail }
     s.stage = .xs 2 2 7 ∧ Memory.wf s.sx = true ∧ Memory.wf s.sy = true ∧ s.reply = some .fail) ∧
    badSecret.stage = .coeffs 2 2 7 ∧ Memory.wf badSecret.sx = true ∧ Memory.wf badSecret.sy = true ∧
    (∃ left, exec (.generate 1) badSecret = .fault (.internalFault left)) :=
  ⟨exists_next (by decide +kernel), rfl, ⟨rfl, rfl, rfl, rfl⟩, rfl, rfl, rfl, exists_fault (by decide +kernel)⟩

theorem test_witness_CapacityAborts :
    (let s := gen 7 2 257
     s.stage = .start ∧ 1 < s.genT.toNat ∧ s.genT.toNat ≤ s.genN.toNat ∧ s.params.maxShares < s.genN.toNat) ∧
    (rec [] 255 2).params.maxShares < (rec [] 255 2).recBase.toNat + (rec [] 255 2).recCount.toNat ∧
    (rec [] 0xFFFFFFFF 1).params.maxShares <
      (rec [] 0xFFFFFFFF 1).recBase.toNat + (rec [] 0xFFFFFFFF 1).recCount.toNat := by decide

/-- A full window up to MAX_SHARES, with a share at x = 0 and the polynomial 5 + 2x: shares (0, 5), (1, 7), (3, 11). -/
def window : State :=
  { State.reset with
    sx := [(254, 1), (255, 3)], sy := [(253, 5), (254, 7), (255, 11)], recBase := 253, recCount := 3 }

theorem test_witness_ReconstructResult_ReconstructFailsExactlyOnDuplicates :
    window.recCount.toNat = 3 ∧ window.recBase.toNat + 3 ≤ window.params.maxShares ∧ window.errcode = none ∧
    (∀ j < 3, (Memory.read window.sx (window.recBase.toNat + j)).toNat < PRIME ∧
      (Memory.read window.sy (window.recBase.toNat + j)).toNat < PRIME) ∧
    (∀ i < 3, ∀ j < 3, i ≠ j →
      Memory.read window.sx (window.recBase.toNat + i) ≠ Memory.read window.sx (window.recBase.toNat + j)) ∧
    (∀ i < 3, ∀ j < 3, i ≠ j → (Memory.read window.sx (window.recBase.toNat + i)).toNat ≠
      (Memory.read window.sx (window.recBase.toNat + j)).toNat) := by decide +kernel

theorem test_witness_ReconstructShareAtZero :
    3 = window.recCount.toNat ∧ window.recBase.toNat + 3 ≤ window.params.maxShares ∧
    (∀ i < 3, (Memory.read window.sx (window.recBase.toNat + i)).toNat < PRIME ∧
      (Memory.read window.sy (window.recBase.toNat + i)).toNat < PRIME) ∧
    (∀ i < 3, ∀ l < 3, i ≠ l →
      Memory.read window.sx (window.recBase.toNat + i) ≠ Memory.read window.sx (window.recBase.toNat + l)) ∧
    0 < 3 ∧ Memory.read window.sx (window.recBase.toNat + 0) = 0 := by decide +kernel

/-- t = 2 coefficients, 5 and 2, and k = 3 shares. -/
theorem test_witness_ReconstructRecoversSecret :
    3 = window.recCount.toNat ∧ window.recBase.toNat + 3 ≤ window.params.maxShares ∧ 1 ≤ 2 ∧ 2 ≤ 3 ∧
    (∀ i < 2, [5, 2].getD i 0 < PRIME) ∧
    (∀ j < 3, (Memory.read window.sx (window.recBase.toNat + j)).toNat < PRIME) ∧
    (∀ i < 3, ∀ j < 3, i ≠ j →
      Memory.read window.sx (window.recBase.toNat + i) ≠ Memory.read window.sx (window.recBase.toNat + j)) ∧
    (∀ j < 3, (Memory.read window.sy (window.recBase.toNat + j)).toNat =
      (∑ i ∈ Finset.range 2,
        [5, 2].getD i 0 * (Memory.read window.sx (window.recBase.toNat + j)).toNat ^ i) % PRIME) := by decide +kernel

/-- An empty window at base MAX_SHARES, a window of one share at the last entry. -/
theorem test_witness_ReconstructEmptyAndSingle :
    (let s := rec [] 256 0
     s.recCount = 0 ∧ s.recBase.toNat ≤ s.params.maxShares) ∧
    (let s := { State.reset with sx := [(255, 3)], sy := [(255, 11)], recBase := 255, recCount := 1 }
     s.recCount = 1 ∧ s.recBase.toNat + 1 ≤ s.params.maxShares ∧
      (Memory.read s.sx s.recBase.toNat).toNat < PRIME ∧ (Memory.read s.sy s.recBase.toNat).toNat < PRIME) := by
  decide +kernel

theorem test_witness_FrameFieldRegisters_FrameHostRegisters :
    (∃ t, exec (.add 3 1 2) (regs12 3 5) = .next t ∧ (readField 3 t == 8) = true) ∧
    destination (.add 3 1 2) ≠ some 1 ∧ destination (.generate 1) ≠ some 1 :=
  ⟨exists_next (by decide +kernel), by decide, by decide⟩

theorem test_witness_FrameShareMemory :
    StoresOk genXs ∧ genXs.stage = .xs 2 2 7 ∧ 2 ≤ 2 ∧
    (∃ t, exec (.generate 1) genXs = .next t ∧ (t.sx == [(0, 1), (1, 2)]) = true) ∧
    (∃ t, exec (.rand 5) State.reset = .next t ∧ (t.ereq == .pending) = true) ∧ State.reset.stage = .start :=
  ⟨inv_genXs.stores, rfl, by decide, exists_next (by decide +kernel), exists_next (by decide), rfl⟩

theorem test_witness_NoPartialResults :
    (∃ t, exec (.inv 3 1) (regs12 0 0) = .next t ∧ (t.errcode == some .divisionByZero) = true) ∧
    (regs12 0 0).errcode = none := ⟨exists_next (by decide +kernel), rfl⟩

theorem test_witness_BusyHidesProgress :
    (busyAt 0x00001020 (gen 7 2 2)).phase = .exec ∧
    (∃ t, exec (.generate 1) (busyAt 0x00001020 (gen 7 2 2)) = .next t ∧ (t.phase == .exec) = true) :=
  ⟨rfl, exists_next (by decide +kernel)⟩

theorem test_witness_WrittenValuesCanonical :
    MachineInv genXs ∧ (∃ t, exec (.generate 1) genXs = .next t ∧ (t.sy == [(0, 16), (1, 25)]) = true) :=
  ⟨inv_genXs, exists_next (by decide +kernel)⟩

/-- An arithmetic command, an illegal word, and a GENERATE with t = 1. -/
theorem test_witness_DrawlessCommandsEndInOneTurn :
    (∀ w, let s := busyAt w (coreOnly (gen 7 1 3))
      MachineInv s ∧ s.phase = .exec ∧ s.stage = .start ∧ upcoming s = .core) ∧
    (∀ rd, decode 0x00021302 ≠ some (.rand rd)) ∧ (∀ rd, decode 0x00021302 ≠ some (.randnz rd)) ∧
    (∀ ra, decode 0x00021302 ≠ some (.generate ra)) ∧ decode 0xFFFFFFFF = none ∧
    (∀ rd, decode 0x00001020 ≠ some (.rand rd)) ∧ (∀ rd, decode 0x00001020 ≠ some (.randnz rd)) ∧
    (busyAt 0x00001020 (gen 7 1 3)).genT.toNat ≤ 1 :=
  ⟨fun w => ⟨inv_busyAt w _ 1 3 [.core], rfl, rfl, rfl⟩, by decide, by decide, by decide, by decide, by decide, by decide,
    by decide⟩

/-- A command that waits for its draw, its environment as given. -/
theorem awaits (w : Word32) (st : Stage) (i : Instr) (sched cyc : List Turn) (s : State) (hd : decode w = some i)
    (hs : Draws i st) : AwaitsAnswer { inDraw w st 0 none s with schedule := sched, cycle := cyc } :=
  ⟨rfl, ⟨i, hd, hs⟩, rfl, rfl⟩

/-- No answer ever; zeros for ever, for RANDNZ and for both batches of GENERATE; a core turn, an answer and a reset. -/
theorem test_witness_HangsAreEndless :
    (let s := { inDraw 0x00000510 .sampling 0 none State.reset with schedule := [], cycle := [.core] }
     AwaitsAnswer s ∧ s.schedule = [] ∧ s.cycle = [.core] ∧ ∃ t, step s = .next t ∧ (t == s) = true) ∧
    (∀ x ∈ [((0x00000711 : Word32), Stage.batchOne, Instr.randnz 7, 1), (0x00001020, .coeffs 2 2 7, .generate 1, 1),
        (0x00001020, .xs 2 2 7, .generate 1, 2)],
      let s := { inDraw x.1 x.2.1 0 none (gen 7 2 2) with
        schedule := [], cycle := [.entropy none (.ok (bytes 0)), .core] }
      AwaitsAnswer s ∧ decode s.cur = some x.2.2.1 ∧ RunsBatch x.2.2.1 s.stage x.2.2.2 ∧ s.loopIdx < x.2.2.2 ∧
        Memory.wf s.batchBuf = true) ∧ sample (bytes 0) = 0 ∧
    (let s := { inDraw 0x00000510 .sampling 0 none State.reset with
       schedule := [.entropy none .fail, .host (.write 0x008 1)], cycle := [] }
     AwaitsAnswer s ∧ ∃ t, step s = .next t ∧ (t.reply == some .fail) = true) ∧
    (let s := { inDraw 0x00000510 .sampling 0 none State.reset with
       schedule := [.host (.write 0x008 1)], cycle := [] }
     AwaitsAnswer s ∧ ResetsNext s ∧ ∃ t, step s = .next t ∧ (t.phase == .idle) = true) := by
  refine ⟨⟨awaits _ _ (.rand 5) _ _ _ (by decide) (.rand 5), rfl, rfl, exists_next (by decide +kernel)⟩, ?_,
    by decide +kernel,
    ⟨awaits _ _ (.rand 5) _ _ _ (by decide) (.rand 5), exists_next (by decide)⟩,
    ⟨awaits _ _ (.rand 5) _ _ _ (by decide) (.rand 5), ⟨0x008, 1, rfl, rfl, rfl⟩, exists_next (by decide)⟩⟩
  intro x hx
  simp only [List.mem_cons, List.not_mem_nil, or_false] at hx
  obtain rfl | rfl | rfl := hx
  · exact ⟨awaits _ _ (.randnz 7) _ _ _ (by decide) (.batch (.randnz 7)), by decide, .randnz 7, by decide, rfl⟩
  · exact ⟨awaits _ _ (.generate 1) _ _ _ (by decide) (.batch (.coeffs 1 2 2 7)), by decide, .coeffs 1 2 2 7,
      by decide, rfl⟩
  · exact ⟨awaits _ _ (.generate 1) _ _ _ (by decide) (.batch (.xs 1 2 2 7)), by decide, .xs 1 2 2 7, by decide, rfl⟩

theorem test_witness_StepKeepsInvariant_StepNeverFaults :
    MachineInv genXs ∧ (∃ t, step genXs = .next t ∧ (t.entropyCount == 3) = true) :=
  ⟨inv_genXs, exists_next (by decide +kernel)⟩

theorem test_witness_ParametersNeverChange :
    ∃ t, host (.write 0x008 1) (regs12 3 4) = .next t ∧ (t.params == Params.default) = true :=
  exists_next (by decide +kernel)

theorem test_witness_FatalLocksUntilReset :
    (∃ left, exec (.generate 1) badSecret = .fault (.internalFault left)) ∧
    (∃ t, step (coreOnly State.reset) = .next t ∧ (t.fatal == false) = true) ∧ (coreOnly State.reset).fatal = false ∧
    (let s := { State.reset with fatal := true, schedule := [.host (.write 0x008 1)] }
     s.fatal = true ∧ ResetsNext s ∧ ∃ t, step s = .next t ∧ (t.fatal == false) = true) ∧
    (∃ t, step (coreOnly { State.reset with fatal := true }) = .next t ∧ (t.fatal == true) = true) :=
  ⟨exists_fault (by decide +kernel), exists_next (by decide), rfl,
    ⟨rfl, ⟨0x008, 1, rfl, rfl, rfl⟩, exists_next (by decide)⟩, exists_next (by decide)⟩

/-- The pending draw answered by its number and without it, an answer when none is pending, one to an earlier draw; a core
step that issues a draw and one that issues none. -/
theorem test_witness_EntropyAnswers :
    (∀ d ∈ [none, some 1, some 0],
      let s := { inDraw 0x00000510 .sampling 0 none State.reset with schedule := [.entropy d .fail] }
      upcoming s = .entropy d .fail ∧ s.ereq = .pending ∧ s.drawId = 1) ∧
    (let s := { State.reset with schedule := [.entropy none .fail] }
     upcoming s = .entropy none .fail ∧ s.ereq = .none) ∧
    (∃ t, exec (.rand 5) State.reset = .next t ∧ (t.drawId == 1) = true) ∧
    (∃ t, exec (.add 3 1 2) (regs12 3 5) = .next t ∧ (t.drawId == 0 && t.ereq == .none) = true) :=
  ⟨fun _ _ => ⟨rfl, rfl, rfl⟩, ⟨rfl, rfl⟩, exists_next (by decide), exists_next (by decide +kernel)⟩

theorem test_witness_LowAddressBitsIgnored :
    upcoming { State.reset with schedule := [.host (.read 0x00F)] } = .host (.read 0x00F) := rfl

/-- The first and the last address of each clause. -/
theorem test_witness_ReadSideEffects :
    (busyAt 0 State.reset).phase = .exec ∧ State.reset.phase = .idle ∧
    (∀ a ∈ [(0x100 : Addr), 0x33F], 0x100 ≤ a.toNat ∧ a.toNat < 0x340) ∧ (0x0FF : Addr).toNat < 0x100 ∧
    0x340 ≤ (0x340 : Addr).toNat := ⟨rfl, rfl, by simp, by decide, by decide⟩

theorem test_witness_ReservedOffsets :
    ∀ a ∈ [(0x034 : Addr), 0x0FF, 0x340, 0xFFF], (0x034 ≤ a.toNat ∧ a.toNat < 0x100) ∨ 0x340 ≤ a.toNat := by simp

theorem test_witness_PlainRegisters : State.reset.phase = .idle := rfl

theorem test_witness_FregWindow :
    (0x100 : Addr).toNat = 0x100 + 0x20 * (0 : RegIdx).val + 4 * (0 : Fin 8).val ∧
    (0x2FC : Addr).toNat = 0x100 + 0x20 * (15 : RegIdx).val + 4 * (7 : Fin 8).val ∧
    State.reset.phase = .idle ∧ (busyAt 0 State.reset).phase = .exec := by decide

/-- The last entry that exists and the first that does not. -/
theorem test_witness_ShareWindows :
    (0x31C : Addr).toNat = 0x300 + 4 * (7 : Fin 8).val ∧ (0x33C : Addr).toNat = 0x320 + 4 * (7 : Fin 8).val ∧
    StoresOk { State.reset with sidx := 255 } ∧ StoresOk { State.reset with sidx := 256 } ∧
    StoresOk (busyAt 0 State.reset) ∧ State.reset.phase = .idle ∧ (busyAt 0 State.reset).phase = .exec ∧
    (255 : Word32).toNat < State.reset.params.maxShares ∧ State.reset.params.maxShares ≤ (256 : Word32).toNat :=
  ⟨rfl, rfl, ⟨rfl, rfl, rfl, rfl⟩, ⟨rfl, rfl, rfl, rfl⟩, ⟨rfl, rfl, rfl, rfl⟩, rfl, rfl, by decide, by decide⟩

theorem test_witness_BlockedAccesses :
    (busyAt 0 State.reset).phase = .exec ∧ ({ State.reset with fatal := true } : State).fatal = true ∧
    (∀ a ∈ [(0x01C : Addr), 0x02F, 0x100, 0x33F],
      (0x01C ≤ a.toNat ∧ a.toNat < 0x030) ∨ (0x100 ≤ a.toNat ∧ a.toNat < 0x340)) ∧
    (∃ t, host (.read 0x100) (busyAt 0 State.reset) = .next t ∧ (t.overrun == true) = true) ∧
    (busyAt 0 State.reset).overrun = false ∧
    (∃ t, host (.write 0x00C 8) { State.reset with overrun := true } = .next t ∧ (t.overrun == false) = true) :=
  ⟨rfl, rfl, by simp, exists_next (by decide +kernel), rfl, exists_next (by decide +kernel)⟩

theorem test_witness_AcceptCommandWrite :
    State.reset.phase = .idle ∧ State.reset.fatal = false ∧ (busyAt 0 State.reset).phase = .exec := by decide

/-- DONE and ERR both pending, both written with 1. -/
theorem test_witness_InterruptAcknowledged :
    let s := { State.reset with done := true, err := true, doneIE := true, errIE := true }
    s.irq = true ∧ (s.done = true ∧ s.doneIE = true → (6 : Word32).getLsbD 1 = true) ∧
    (s.err = true ∧ s.errIE = true → (6 : Word32).getLsbD 2 = true) ∧ s.phase = .idle ∧ s.fatal = false := by decide

theorem test_witness_SoftResetWrite : (1 : Word32).getLsbD 0 = true ∧ (0xFFFFFFFE : Word32).getLsbD 0 = false := by decide

theorem test_witness_HiddenStoresUnseen :
    SameButHidden State.reset { State.reset with coeffA := [(0, 7)], batchBuf := [(3, 1)] } ∧
    genXs.phase = .exec ∧ (∃ t, exec (.generate 1) genXs = .next t ∧ (t.phase == .idle) = true) :=
  ⟨rfl, rfl, exists_next (by decide +kernel)⟩

end Sys2Proof.Tests
end

section
/-! PROOFS, 00_scope.md. What a command writes is canonical: the sources of a written value (a sample, the batch buffer,
the polynomial), then what a core step leaves of the field registers and of the share memory, then O38. -/

namespace Sys2Proof.Proofs

open Sys2Proof.Machine Sys2Proof.Laws

/-! ### The values a command writes -/

theorem toNat_ofNat_lt_PRIME {v : Nat} (h : v < PRIME) : (BitVec.ofNat 256 v).toNat < PRIME :=
  (toNat_ofNat_of_lt h).symm ▸ h

/-- The batch buffer stays canonical when the sample of an answer is stored in it. -/
theorem read_stored_lt_PRIME {s : State} (hi : MachineInv s) (b : Vector Byte 32) (j : Nat) :
    (Memory.read (stored b s) j).toNat < PRIME := by
  have hwf : Memory.wf s.batchBuf = true := ((storeOk_iff _ _).1 hi.stores.batchBuf).1
  unfold stored
  rcases eq_or_ne j s.loopIdx with rfl | hj
  · rw [memory_read_write_same _ _ hwf]
    exact toNat_ofNat_lt_PRIME (sample_lt b)
  · rw [memory_read_write_other _ _ hj]
    exact (canon_iff _).1 (hi.batch j)

/-- The accumulator of PolyEval starts canonical and every turn's fadd keeps it so. -/
theorem polyLoop_fst_lt_PRIME {a : Nat → Nat} (h0 : a 0 < PRIME) (x : Nat) : ∀ i, (polyLoop a x i).1 < PRIME
  | 0     => h0
  | i + 1 => fadd_lt (polyLoop_fst_lt_PRIME h0 x i) (fmul_lt _ _)

theorem polyEval_lt_PRIME {a : Nat → Nat} (h0 : a 0 < PRIME) (t x : Nat) : polyEval a t x < PRIME :=
  polyLoop_fst_lt_PRIME h0 x (t - 1)

/-- In its second batch GENERATE still holds the canonical secret in A[0]. -/
theorem constantTerm_lt_PRIME {s : State} {t n : Nat} {secret : Word256} (hi : MachineInv s)
    (hs : s.stage = .xs t n secret) : polynomial s.coeffA 0 < PRIME := by
  have hprog := hi.progress
  simp only [StageOk, hs] at hprog
  obtain ⟨hgen, -, -⟩ := hprog
  rw [polynomial, hgen.constantTerm]
  exact (canon_iff _).1 hgen.canon

/-! ### What a core step leaves of the data -/

/-- A core step leaves the field registers, or sets one of them to a canonical value. -/
theorem ran_f_cases {i : Instr} {s t : State} (hi : MachineInv s) (h : Ran i s t) :
    t.f = s.f ∨ ∃ (rd : RegIdx) (v : Word256), v.toNat < PRIME ∧ t.f = s.f.set rd.val v := by
  cases h with
  | waiting | started | checked | again | coeffsDone | aborted | wiped | nothing | shared => exact .inl rfl
  | computed rd v _ _ hv => exact .inr ⟨rd, _, toNat_ofNat_lt_PRIME hv, rfl⟩
  | sampled rd b v _ _ hv =>
    refine .inr ⟨rd, v, ?_, rfl⟩
    obtain ⟨-, rfl⟩ | ⟨-, rfl, -⟩ := hv
    · exact toNat_ofNat_lt_PRIME (sample_lt b)
    · exact read_stored_lt_PRIME hi b 0

/-- A core step leaves the share memory, or fills its first entries with canonical values. -/
theorem ran_shares_cases {i : Instr} {s t : State} (hi : MachineInv s) (h : Ran i s t) :
    (t.sx = s.sx ∧ t.sy = s.sy) ∨
    ∃ (n : Nat) (gx gy : Nat → Word256), (∀ j, (gx j).toNat < PRIME ∧ (gy j).toNat < PRIME) ∧
      t.sx = Memory.fill s.sx gx n ∧ t.sy = Memory.fill s.sy gy n := by
  cases h with
  | waiting | started | checked | again | coeffsDone | aborted | nothing | computed | sampled => exact .inl ⟨rfl, rfl⟩
  | wiped ra t n => exact .inr ⟨n, fun _ => 0, fun _ => 0, fun _ => ⟨PRIME_pos, PRIME_pos⟩, rfl, rfl⟩
  | shared ra t n secret b _ hs =>
    have h0 := constantTerm_lt_PRIME hi hs
    exact .inr ⟨n, _, _, fun j => ⟨read_stored_lt_PRIME hi b j, toNat_ofNat_lt_PRIME (polyEval_lt_PRIME h0 t _)⟩, rfl, rfl⟩

/-! ### Read back -/

theorem readField_eq_or_lt_PRIME_of_set {s t : State} {rd : RegIdx} {v : Word256} (hv : v.toNat < PRIME)
    (h : t.f = s.f.set rd.val v) (r : RegIdx) : readField r t = readField r s ∨ (readField r t).toNat < PRIME := by
  have hread : readField r t = readField r (writeRaw rd v s) := by simp only [readField, writeRaw, h]
  rw [hread]
  rcases eq_or_ne r rd with rfl | hr
  · rw [readField_writeRaw_same]
    exact .inr hv
  · exact .inl (readField_writeRaw_other v s hr)

theorem read_fill_eq_or_lt_PRIME {m : Memory} {g : Nat → Word256} (hm : Memory.wf m = true)
    (hg : ∀ j, (g j).toNat < PRIME) (n j : Nat) :
    Memory.read (Memory.fill m g n) j = Memory.read m j ∨ (Memory.read (Memory.fill m g n) j).toNat < PRIME := by
  rw [memory_read_fill g n j hm]
  split
  · exact .inr (hg j)
  · exact .inl rfl

/-- Settles O38: a core step changes the data only in the two ways of ran_f_cases and ran_shares_cases. -/
theorem writtenValuesCanonical : Obligations.WrittenValuesCanonical := by
  intro i s t hi h
  have hran := exec_cases h
  have hsx : Memory.wf s.sx = true := ((storeOk_iff _ _).1 hi.stores.sx).1
  have hsy : Memory.wf s.sy = true := ((storeOk_iff _ _).1 hi.stores.sy).1
  constructor
  · intro r
    obtain hf | ⟨rd, v, hv, hf⟩ := ran_f_cases hi hran
    · exact .inl (by simp only [readField, hf])
    · exact readField_eq_or_lt_PRIME_of_set hv hf r
  · obtain ⟨hx, hy⟩ | ⟨n, gx, gy, hg, hx, hy⟩ := ran_shares_cases hi hran <;> rw [hx, hy]
    · exact ⟨fun _ => .inl rfl, fun _ => .inl rfl⟩
    · exact ⟨read_fill_eq_or_lt_PRIME hsx (fun j => (hg j).1) n, read_fill_eq_or_lt_PRIME hsy (fun j => (hg j).2) n⟩

end Sys2Proof.Proofs
end

section
/-! PROOFS, 10_state.md. First the invariant: what the block is at rest, then that each agent's turn keeps MachineInv
(the host's accesses, the answers, the core's steps by the forms of Ran). Then the frames of the commands, FATAL and
OVERRUN over a step, and the host's registers and windows location by location. -/

namespace Sys2Proof.Proofs

open Sys2Proof.Machine Sys2Proof.Laws

/-! ### A block with no command under way -/

/-- Nothing of a command is under way: A and BUF are zero, no progress, no request (10_state.md R37 to R40). -/
def AtRest (s : State) : Prop :=
  s.coeffA = [] ∧ s.batchBuf = [] ∧ s.stage = .start ∧ s.loopIdx = 0 ∧ s.ndraws = 0 ∧ s.reply = none ∧ s.ereq = .none

theorem wf_of_storeOk {p : Params} {m : Memory} (h : storeOk p m = true) : Memory.wf m = true :=
  ((storeOk_iff p m).1 h).1

theorem idleClean_iff (s : State) : IdleClean s ↔ (s.phase = .idle → AtRest s) := Iff.rfl

/-- At rest the invariant is one of the parameters, the share memory and the flags. -/
theorem machineInv_of_atRest {s : State} (hp : s.params.legal) (hx : storeOk s.params s.sx = true)
    (hy : storeOk s.params s.sy = true) (hr : AtRest s) (hf : FlagsOk s) : MachineInv s := by
  have hidle : IdleClean s := (idleClean_iff s).2 fun _ => hr
  obtain ⟨hA, hB, hst, -, hn, hreply, hereq⟩ := hr
  refine ⟨hp, ⟨hx, hy, by rw [hA]; rfl, by rw [hB]; rfl⟩, hidle, hf, ⟨?_, ?_⟩, ?_, ?_⟩
  · simp [hereq, hst]
  · simp [hreply]
  · simp only [StageOk, hst]
    exact ⟨hA, hB, hn⟩
  · intro j
    rw [hB, memory_read_nil]
    exact (canon_iff _).2 PRIME_pos

theorem atRest_reset : AtRest State.reset := ⟨rfl, rfl, rfl, rfl, rfl, rfl, rfl⟩

theorem flagsOk_reset : FlagsOk State.reset := ⟨rfl, nofun, rfl, nofun⟩

theorem machineInv_softReset {s : State} (h : MachineInv s) : MachineInv (softReset s) :=
  machineInv_of_atRest h.params rfl rfl atRest_reset ⟨rfl, nofun, rfl, nofun⟩

/-- What a completion without error leaves meets the invariant, once no draw is pending. -/
theorem machineInv_completed {s : State} (h : MachineInv s) (hereq : s.ereq = .none) {f : Vector Word256 16}
    {sx sy : Memory} {draws : Nat} (hx : storeOk s.params sx = true) (hy : storeOk s.params sy = true) :
    MachineInv (completed f sx sy draws s) :=
  machineInv_of_atRest h.params hx hy ⟨rfl, rfl, rfl, rfl, rfl, rfl, hereq⟩
    ⟨h.flags.errcode, nofun, h.flags.neverFatal, h.flags.neverFault⟩

theorem machineInv_aborted {s : State} (h : MachineInv s) (hereq : s.ereq = .none) {e : CmdError}
    (he : e ≠ .internalFault) {sx sy : Memory} {draws : Nat} (hx : storeOk s.params sx = true)
    (hy : storeOk s.params sy = true) : MachineInv (Machine.aborted e sx sy draws s) :=
  machineInv_of_atRest h.params hx hy ⟨rfl, rfl, rfl, rfl, rfl, rfl, hereq⟩
    ⟨rfl, nofun, h.flags.neverFatal, fun hc => he (Option.some.inj hc)⟩

/-! ### Steps that leave the work of the running command -/

/-- u differs from s at most in what the host and the environment see or set: the flags, the interrupt enables, the
host's last value, the turns, the request and its answer. -/
def SameWork (s u : State) : Prop :=
  { s with
    ereq := u.ereq, reply := u.reply, done := u.done, err := u.err, errcode := u.errcode, overrun := u.overrun,
    doneIE := u.doneIE, errIE := u.errIE, hostData := u.hostData, schedule := u.schedule,
    freeTurns := u.freeTurns } = u

/-- A GENERATE past its checks stays so while its registers and A[0] do. -/
theorem generating_of_eq {t n : Nat} {secret : Word256} {s u : State} (h : Generating t n secret s)
    (hcur : u.cur = s.cur) (hf : u.f = s.f) (hT : u.genT = s.genT) (hN : u.genN = s.genN) (hp : u.params = s.params)
    (hA : Memory.read u.coeffA 0 = secret) : Generating t n secret u where
  command := by
    obtain ⟨ra, hd, hs⟩ := h.command
    exact ⟨ra, by rw [hcur, hd], by rw [← hs, readField, readField, hf]⟩
  tReg := by rw [hT, h.tReg]
  nReg := by rw [hN, h.nReg]
  tLow := h.tLow
  tHigh := h.tHigh
  nHigh := by rw [hp]; exact h.nHigh
  canon := h.canon
  constantTerm := hA

theorem stageOk_of_sameWork {s u : State} (hw : SameWork s u) (h : StageOk s) : StageOk u := by
  rw [← hw]
  unfold StageOk at h ⊢
  cases hs : s.stage <;> simp only [hs] at h ⊢
  case start | sampling | batchOne => exact h
  case coeffs | xs =>
    obtain ⟨hg, hrest⟩ := h
    exact ⟨generating_of_eq hg rfl rfl rfl rfl rfl hg.constantTerm, hrest⟩

/-- Where the work of the command is left, the invariant is one of the flags and the request. -/
theorem machineInv_of_sameWork {s u : State} (hw : SameWork s u) (h : MachineInv s) (hf : FlagsOk u) (hi : IdleClean u)
    (hr : RequestOk u) : MachineInv u where
  params := by rw [← hw]; exact h.params
  stores := by rw [← hw]; exact ⟨h.stores.sx, h.stores.sy, h.stores.coeffA, h.stores.batchBuf⟩
  idle := hi
  flags := hf
  request := hr
  progress := stageOk_of_sameWork hw h.progress
  batch := by rw [← hw]; exact h.batch

/-- The same where the request, DONE, ERR and ERRCODE are left as well. -/
theorem machineInv_of_sameFlags {s u : State} (hw : SameWork s u) (h : MachineInv s)
    (hu : { u with ereq := s.ereq, reply := s.reply, done := s.done, err := s.err, errcode := s.errcode } = u) :
    MachineInv u := by
  refine machineInv_of_sameWork hw h ?_ ?_ ?_ <;> rw [← hu, ← hw]
  · exact ⟨h.flags.errcode, h.flags.busyClear, h.flags.neverFatal, h.flags.neverFault⟩
  · exact h.idle
  · exact ⟨h.request.pending, h.request.reply⟩

theorem machineInv_advance {s : State} (h : MachineInv s) : MachineInv (advance s) := by
  rw [advance_eq]
  exact machineInv_of_sameFlags rfl h rfl

theorem machineInv_setOverrun {s : State} (h : MachineInv s) : MachineInv (setOverrun s) :=
  machineInv_of_sameFlags rfl h rfl

theorem machineInv_toHost {s : State} (h : MachineInv s) (v : Word32) : MachineInv (toHost v s) :=
  machineInv_of_sameFlags rfl h rfl

theorem machineInv_writeIE {s : State} (h : MachineInv s) (v : Word32) : MachineInv (writeIE v s) :=
  machineInv_of_sameFlags rfl h rfl

/-- ERRCODE is cleared together with ERR. -/
theorem flagsOk_writeStatus {s : State} (h : FlagsOk s) (v : Word32) : FlagsOk (writeStatus v s) where
  errcode := by
    rw [writeStatus_errcode, writeStatus_err, ← h.errcode]
    cases v.getLsbD 2 <;> simp
  busyClear hp := by
    obtain ⟨hd, he⟩ := h.busyClear hp
    simp [hd, he]
  neverFatal := h.neverFatal
  neverFault := by
    rw [writeStatus_errcode]
    split
    · exact nofun
    · exact h.neverFault

theorem machineInv_writeStatus {s : State} (h : MachineInv s) (v : Word32) : MachineInv (writeStatus v s) :=
  machineInv_of_sameWork rfl h (flagsOk_writeStatus h.flags v) h.idle ⟨h.request.pending, h.request.reply⟩

/-! ### The answer to a draw -/

/-- A pending draw belongs to a started command that has no answer yet. -/
theorem machineInv_deliver {s : State} (h : MachineInv s) (hp : s.ereq = .pending) (r : Reply) :
    MachineInv (deliver r s) := by
  obtain ⟨hst, -⟩ := h.request.pending.1 hp
  refine machineInv_of_sameWork rfl h ⟨h.flags.errcode, h.flags.busyClear, h.flags.neverFatal, h.flags.neverFault⟩ ?_ ?_
  · intro hidle
    obtain ⟨-, -, hstart, -⟩ := h.idle hidle
    exact absurd hstart hst
  · exact ⟨by simp, fun _ => hst⟩

theorem machineInv_answerDraw {s : State} (h : MachineInv s) (d : Option Nat) (r : Reply) :
    MachineInv (answerDraw d r s) := by
  obtain ⟨hp, -, heq⟩ | ⟨-, heq⟩ := answerDraw_cases d r s <;> rw [heq]
  · exact machineInv_deliver h hp r
  · exact h

/-! ### A host access -/

/-- u differs from s at most in the data and the parameter registers that the host writes. -/
def SameButData (s u : State) : Prop :=
  { s with
    f := u.f, sx := u.sx, sy := u.sy, genT := u.genT, genN := u.genN, recBase := u.recBase, recCount := u.recCount,
    sidx := u.sidx } = u

/-- A write that a busy block drops: an idle block takes it, and is at rest before and after. -/
theorem machineInv_unlessBusy {s u : State} (h : MachineInv s) (hd : SameButData s u) (hu : StoresOk u) :
    MachineInv (unlessBusy s u) := by
  cases hp : s.phase with
  | exec =>
    rw [unlessBusy_exec _ hp]
    exact machineInv_setOverrun h
  | idle =>
    rw [unlessBusy_idle _ hp]
    have hrest : AtRest s := (idleClean_iff s).1 h.idle hp
    refine machineInv_of_atRest ?_ hu.sx hu.sy ?_ ?_ <;> rw [← hd]
    · exact h.params
    · exact hrest
    · exact ⟨h.flags.errcode, h.flags.busyClear, h.flags.neverFatal, h.flags.neverFault⟩

theorem sameButData_writeSX (k : Fin 8) (v : Word32) (s : State) : SameButData s (writeSX k v s) := by
  unfold writeSX; split <;> rfl

theorem sameButData_writeSY (k : Fin 8) (v : Word32) (s : State) : SameButData s (writeSY k v s) := by
  unfold writeSY; split <;> rfl

theorem machineInv_acceptCommand {s : State} (h : MachineInv s) (hp : s.phase = .idle) (w : Word32) :
    MachineInv (acceptCommand w s) := by
  obtain ⟨hA, hB, -, -, -, -, hereq⟩ := h.idle hp
  exact machineInv_of_atRest h.params h.stores.sx h.stores.sy ⟨hA, hB, rfl, rfl, rfl, rfl, hereq⟩
    ⟨rfl, fun _ => ⟨rfl, rfl⟩, h.flags.neverFatal, nofun⟩

theorem machineInv_writeCmd {s : State} (h : MachineInv s) (w : Word32) : MachineInv (writeCmd w s) := by
  unfold writeCmd
  split
  · exact machineInv_setOverrun h
  · rename_i hc
    rw [Bool.or_eq_true, not_or, Bool.not_eq_true, busy_false_iff] at hc
    exact machineInv_acceptCommand h hc.1 w

theorem machineInv_writeLoc {s : State} (h : MachineInv s) (l : Loc) (v : Word32) : MachineInv (writeLoc l v s) := by
  have hs : StoresOk s := h.stores
  cases l with
  | ctrl =>
    rw [writeLoc]
    split
    · exact machineInv_softReset h
    · exact h
  | status => exact machineInv_writeStatus h v
  | ie => exact machineInv_writeIE h v
  | cmd => exact machineInv_writeCmd h v
  | genT | genN | recBase | recCount | sidx | freg =>
    exact machineInv_unlessBusy h rfl ⟨hs.sx, hs.sy, hs.coeffA, hs.batchBuf⟩
  | sx k => exact machineInv_unlessBusy h (sameButData_writeSX k v s) (writeSX_stores hs)
  | sy k => exact machineInv_unlessBusy h (sameButData_writeSY k v s) (writeSY_stores hs)
  | id | caps | errcode | entropyCount | reserved => exact h

theorem machineInv_hostRead {s : State} (h : MachineInv s) (a : Addr) : MachineInv (hostRead a s) := by
  unfold hostRead
  split
  · exact machineInv_toHost (machineInv_setOverrun h) 0
  · exact machineInv_toHost h _

theorem machineInv_hostAccess {s : State} (h : MachineInv s) (a : Access) : MachineInv (hostAccess a s) := by
  cases a with
  | read a => exact machineInv_hostRead h a
  | write a v => exact machineInv_writeLoc h (locOf a) v

/-! ### A core step -/

/-- A command past its start is one that draws. -/
theorem draws_of_stage_ne_start {s : State} (h : StageOk s) (hs : s.stage ≠ .start) :
    ∃ i, decode s.cur = some i ∧ Draws i s.stage := by
  unfold StageOk at h
  cases hst : s.stage <;> simp only [hst] at h
  case start => exact absurd hst hs
  case sampling =>
    obtain ⟨⟨rd, hd⟩, -⟩ := h
    exact ⟨_, hd, .rand rd⟩
  case batchOne =>
    obtain ⟨⟨rd, hd⟩, -⟩ := h
    exact ⟨_, hd, .batch (.randnz rd)⟩
  case coeffs t n secret =>
    obtain ⟨hg, -⟩ := h
    obtain ⟨ra, hd, -⟩ := hg.command
    exact ⟨_, hd, .batch (.coeffs ra t n secret)⟩
  case xs t n secret =>
    obtain ⟨hg, -⟩ := h
    obtain ⟨ra, hd, -⟩ := hg.command
    exact ⟨_, hd, .batch (.xs ra t n secret)⟩

theorem stage_start_of_not_draws {s : State} {i : Instr} (h : StageOk s) (hd : decode s.cur = some i)
    (hn : ¬ Draws i s.stage) : s.stage = .start := by
  by_contra hs
  obtain ⟨j, hj, hdr⟩ := draws_of_stage_ne_start h hs
  rw [hd] at hj
  cases hj
  exact hn hdr

theorem stage_start_of_illegal {s : State} (h : StageOk s) (hd : decode s.cur = none) : s.stage = .start := by
  by_contra hs
  obtain ⟨j, hj, -⟩ := draws_of_stage_ne_start h hs
  rw [hd] at hj
  cases hj

/-- No draw is pending at the start of a command or once its answer is there. -/
theorem ereq_none_of_start {s : State} (h : RequestOk s) (hs : s.stage = .start) : s.ereq = .none := by
  cases he : s.ereq with
  | none => rfl
  | pending => exact absurd hs (h.pending.1 he).1

theorem ereq_none_of_reply {s : State} (h : RequestOk s) {r : Reply} (hr : s.reply = some r) : s.ereq = .none := by
  cases he : s.ereq with
  | none => rfl
  | pending =>
    have hnone := (h.pending.1 he).2
    rw [hr] at hnone
    cases hnone

/-- A busy block that issues a draw meets the invariant when its stores and its progress fit. -/
theorem machineInv_drawing {s : State} (h : MachineInv s) (hp : s.phase = .exec) {st : Stage} (hst : st ≠ .start)
    {j draws : Nat} {a m : Memory} (ha : storeOk s.params a = true) (hm : storeOk s.params m = true)
    (hcanon : ∀ i, canon (Memory.read m i).toNat = true) (hprog : StageOk (drawing st j draws a m s)) :
    MachineInv (drawing st j draws a m s) where
  params := h.params
  stores := ⟨h.stores.sx, h.stores.sy, ha, hm⟩
  idle hidle := absurd (hp.symm.trans hidle) nofun
  flags := ⟨h.flags.errcode, h.flags.busyClear, h.flags.neverFatal, h.flags.neverFault⟩
  request := ⟨⟨fun _ => ⟨hst, rfl⟩, fun _ => rfl⟩, nofun⟩
  progress := hprog
  batch := hcanon

theorem generating_drawing {t n : Nat} {secret : Word256} {s : State} (h : Generating t n secret s) (st : Stage)
    (j draws : Nat) {a : Memory} (m : Memory) (ha : Memory.read a 0 = secret) :
    Generating t n secret (drawing st j draws a m s) :=
  generating_of_eq h rfl rfl rfl rfl rfl ha

theorem generating_of_coeffs {s : State} (h : StageOk s) {t n : Nat} {secret : Word256}
    (hs : s.stage = .coeffs t n secret) : Generating t n secret s ∧ s.loopIdx < t - 1 := by
  simpa only [StageOk, hs] using h

theorem generating_of_xs {s : State} (h : StageOk s) {t n : Nat} {secret : Word256} (hs : s.stage = .xs t n secret) :
    Generating t n secret s ∧ s.loopIdx < n ∧
      ∀ i, 1 ≤ i → i < t → Memory.read s.coeffA i ≠ 0 ∧ canon (Memory.read s.coeffA i).toNat = true := by
  simpa only [StageOk, hs] using h

/-- The index of a batch is below its length, and its length at most MAX_SHARES. -/
theorem loopIdx_lt_of_runsBatch {s : State} (h : MachineInv s) {i : Instr} {st : Stage} {k : Nat}
    (hb : RunsBatch i st k) (hs : s.stage = st) : s.loopIdx < k ∧ k ≤ s.params.maxShares := by
  have hprog := h.progress
  cases hb with
  | randnz rd =>
    simp only [StageOk, hs] at hprog
    obtain ⟨-, -, hidx⟩ := hprog
    have := h.params.1
    omega
  | coeffs ra t n secret =>
    obtain ⟨hg, hlt⟩ := generating_of_coeffs hprog hs
    have := hg.tHigh
    have := hg.nHigh
    omega
  | xs ra t n secret =>
    obtain ⟨hg, hlt, -⟩ := generating_of_xs hprog hs
    exact ⟨hlt, hg.nHigh⟩

theorem storeOk_stored {s : State} (h : MachineInv s) (b : Vector Byte 32) {i : Instr} {k : Nat}
    (hb : RunsBatch i s.stage k) : storeOk s.params (stored b s) = true := by
  obtain ⟨hlt, hk⟩ := loopIdx_lt_of_runsBatch h hb rfl
  exact storeOk_write _ _ h.stores.batchBuf (by omega)

theorem canon_stored {s : State} (h : MachineInv s) (b : Vector Byte 32) (j : Nat) :
    canon (Memory.read (stored b s) j).toNat = true :=
  (canon_iff _).2 (read_stored_lt_PRIME h b j)

/-- RAND or RANDNZ issues its first draw. -/
theorem machineInv_started {s : State} (h : MachineInv s) (hp : s.phase = .exec) {i : Instr} (hd : decode s.cur = some i)
    (hs : s.stage = .start) {st : Stage} {rd : RegIdx}
    (hi : i = .rand rd ∧ st = .sampling ∨ i = .randnz rd ∧ st = .batchOne) :
    MachineInv (drawing st 0 s.ndraws s.coeffA s.batchBuf s) := by
  have hprog := h.progress
  simp only [StageOk, hs] at hprog
  obtain ⟨hA, hB, -⟩ := hprog
  obtain ⟨rfl, rfl⟩ | ⟨rfl, rfl⟩ := hi <;>
    refine machineInv_drawing h hp (by simp) h.stores.coeffA h.stores.batchBuf h.batch ?_
  · exact ⟨⟨rd, hd⟩, hA, hB⟩
  · exact ⟨⟨rd, hd⟩, hA, rfl⟩

/-- GENERATE issues its first draw, its checks passed and the secret in A[0]. -/
theorem machineInv_checked {s : State} (h : MachineInv s) (hp : s.phase = .exec) {ra : RegIdx}
    (hd : decode s.cur = some (.generate ra)) (ht : 1 < s.genT.toNat) (htn : s.genT.toNat ≤ s.genN.toNat)
    (hn : s.genN.toNat ≤ s.params.maxShares) (hsec : (readField ra s).toNat < PRIME) :
    MachineInv (drawing (.coeffs s.genT.toNat s.genN.toNat (readField ra s)) 0 s.ndraws
      (Memory.write s.coeffA 0 (readField ra s)) s.batchBuf s) := by
  have hwf : Memory.wf s.coeffA = true := wf_of_storeOk h.stores.coeffA
  refine machineInv_drawing h hp (by simp) (storeOk_write _ _ h.stores.coeffA (by omega)) h.stores.batchBuf h.batch ?_
  refine ⟨⟨⟨ra, hd, rfl⟩, rfl, rfl, ht, htn, hn, (canon_iff _).2 hsec, memory_read_write_same _ _ hwf⟩, ?_⟩
  show 0 < s.genT.toNat - 1
  omega

/-- A batch of k issues its next draw. -/
theorem machineInv_again {s : State} (h : MachineInv s) (hp : s.phase = .exec) {i : Instr} {k j : Nat}
    (hb : RunsBatch i s.stage k) (b : Vector Byte 32) (hj : j < k) :
    MachineInv (drawing s.stage j (s.ndraws + 1) s.coeffA (stored b s) s) := by
  have hprog := h.progress
  have hst : s.stage ≠ .start := fun hc => by rw [hc] at hb; cases hb
  refine machineInv_drawing h hp hst h.stores.coeffA (storeOk_stored h b hb) (canon_stored h b) ?_
  generalize hs : s.stage = st at hb ⊢
  cases hb with
  | randnz rd =>
    simp only [StageOk, hs] at hprog
    obtain ⟨hcur, hA, -⟩ := hprog
    exact ⟨hcur, hA, Nat.lt_one_iff.1 hj⟩
  | coeffs ra t n secret =>
    obtain ⟨hg, -⟩ := generating_of_coeffs hprog hs
    exact ⟨generating_drawing hg _ _ _ _ hg.constantTerm, hj⟩
  | xs ra t n secret =>
    obtain ⟨hg, -, hco⟩ := generating_of_xs hprog hs
    exact ⟨generating_drawing hg _ _ _ _ hg.constantTerm, hj, hco⟩

/-- GENERATE issues the first draw of the x batch, its coefficients loaded. -/
theorem machineInv_coeffsDone {s : State} (h : MachineInv s) (hp : s.phase = .exec) {ra : RegIdx} {t n : Nat}
    {secret : Word256} (hs : s.stage = .coeffs t n secret) (b : Vector Byte 32)
    (hz : ∀ l < t - 1, Memory.read (stored b s) l ≠ 0) :
    MachineInv (drawing (.xs t n secret) 0 (s.ndraws + 1) (loaded t (stored b s) s) (stored b s) s) := by
  obtain ⟨hg, -⟩ := generating_of_coeffs h.progress hs
  have ht := hg.tLow
  have htn := hg.tHigh
  have hn := hg.nHigh
  have hwf : Memory.wf s.coeffA = true := wf_of_storeOk h.stores.coeffA
  have hm : storeOk s.params (stored b s) = true :=
    storeOk_stored h b (i := .generate ra) (hs ▸ RunsBatch.coeffs ra t n secret)
  have hread : ∀ i < t, Memory.read (loaded t (stored b s) s) i =
      if i = 0 then Memory.read s.coeffA 0 else Memory.read (stored b s) (i - 1) := fun i hi => by
    rw [loaded, memory_read_fill _ _ _ hwf, if_pos hi]
  refine machineInv_drawing h hp (by simp) (storeOk_fill _ h.stores.coeffA (by omega)) hm (canon_stored h b) ?_
  refine ⟨generating_drawing hg _ _ _ _ ?_, ?_, fun i h1 hi => ?_⟩
  · rw [hread 0 (by omega), if_pos rfl, hg.constantTerm]
  · show 0 < n
    omega
  · show Memory.read (loaded t (stored b s) s) i ≠ 0 ∧ canon (Memory.read (loaded t (stored b s) s) i).toNat = true
    rw [hread i hi, if_neg (by omega)]
    exact ⟨hz _ (by omega), canon_stored h b _⟩

/-- GENERATE's n is within the share memory in both its batches. -/
theorem n_le_maxShares {s : State} (h : StageOk s) {t n : Nat} {secret : Word256}
    (hs : s.stage = .coeffs t n secret ∨ s.stage = .xs t n secret) : n ≤ s.params.maxShares := by
  obtain hs | hs := hs
  · exact (generating_of_coeffs h hs).1.nHigh
  · exact (generating_of_xs h hs).1.nHigh

/-- Every form of a core step keeps the invariant of a busy block. -/
theorem machineInv_of_ran {i : Instr} {s t : State} (h : MachineInv s) (hp : s.phase = .exec)
    (hd : decode s.cur = some i) (hran : Ran i s t) : MachineInv t := by
  have hstart : ¬ Draws i s.stage → s.stage = .start := stage_start_of_not_draws h.progress hd
  have hfree : ¬ Draws i s.stage → s.ereq = .none := fun hn => ereq_none_of_start h.request (hstart hn)
  have hx := h.stores.sx
  have hy := h.stores.sy
  cases hran with
  | waiting => exact h
  | started st rd hn hi => exact machineInv_started h hp hd (hstart hn) hi
  | checked ra _ hi ht htn hmax hsec => exact machineInv_checked h hp (hi ▸ hd) ht htn hmax hsec
  | again k j b hb _ hj =>
    refine machineInv_again h hp hb b ?_
    obtain ⟨-, hlt⟩ | ⟨rfl, l, hl, -⟩ := hj
    · exact hlt
    · omega
  | coeffsDone ra t n secret b _ hs _ _ hz => exact machineInv_coeffsDone h hp (ra := ra) hs b hz
  | aborted e he hrand hother =>
    refine machineInv_aborted h ?_ he hx hy
    by_cases hre : e = .randomnessUnavailable
    · obtain ⟨-, hr, -⟩ := hrand hre
      exact ereq_none_of_reply h.request hr
    · exact hfree (hother hre)
  | wiped ra t n secret _ hs hr =>
    have hn := n_le_maxShares h.progress hs
    exact machineInv_aborted h (ereq_none_of_reply h.request hr) (by decide) (storeOk_fill _ hx hn) (storeOk_fill _ hy hn)
  | nothing _ hn => exact machineInv_completed h (hfree hn) hx hy
  | computed rd v hn => exact machineInv_completed h (hfree hn) hx hy
  | sampled rd b v _ hr => exact machineInv_completed h (ereq_none_of_reply h.request hr) hx hy
  | shared ra t n secret b _ hs hr =>
    have hn := n_le_maxShares h.progress (.inr hs)
    exact machineInv_completed h (ereq_none_of_reply h.request hr) (storeOk_fill _ hx hn) (storeOk_fill _ hy hn)

theorem machineInv_coreTurn {s t : State} (h : MachineInv s) (ht : coreTurn s = .next t) : MachineInv t := by
  cases hp : s.phase with
  | idle =>
    rw [coreTurn_idle hp] at ht
    cases ht
    exact h
  | exec =>
    cases hd : decode s.cur with
    | none =>
      have hstart := stage_start_of_illegal h.progress hd
      rw [coreTurn_illegal hp hd, takeError_eq s (by decide)] at ht
      cases ht
      exact machineInv_aborted h (ereq_none_of_start h.request hstart) (by decide) h.stores.sx h.stores.sy
    | some i =>
      rw [coreTurn_command hp hd] at ht
      exact machineInv_of_ran h hp hd (exec_cases ht)

/-- Settles O43: taking the turn off keeps the invariant, and so does the turn, whichever of the three agents' it is. -/
theorem stepKeepsInvariant : Obligations.StepKeepsInvariant := by
  intro s t h hstep
  have ha := machineInv_advance h
  obtain ⟨-, ht⟩ | ⟨a, -, rfl⟩ | ⟨d, r, -, rfl⟩ := step_cases hstep
  · exact machineInv_coreTurn ha ht
  · exact machineInv_hostAccess ha a
  · exact machineInv_answerDraw ha d r

/-- Settles O42: the reset state is at rest. -/
theorem resetMeetsInvariant : Obligations.ResetMeetsInvariant :=
  machineInv_of_atRest (by decide) rfl rfl atRest_reset flagsOk_reset

/-! ### Frames of the commands -/

/-- Settles O33: only the two completions with a result write a field register, and that is the destination. -/
theorem frameFieldRegisters : Obligations.FrameFieldRegisters := by
  intro i s t r h hr
  have hother : ∀ (rd : RegIdx) (v : Word256), destination i = some rd → readField r (writeRaw rd v s) = readField r s :=
    fun rd v hd => readField_writeRaw_other v s fun hq => hr (hq ▸ hd)
  cases exec_cases h with
  | waiting | started | checked | again | coeffsDone | aborted | wiped | nothing | shared => rfl
  | computed rd v _ hd => exact hother rd _ hd
  | sampled rd b v hd => exact hother rd v hd

/-- A filled store keeps the entries from n on. -/
theorem memory_read_fill_of_le {m : Memory} (hm : Memory.wf m = true) (g : Nat → Word256) {n j : Nat} (hj : n ≤ j) :
    Memory.read (Memory.fill m g n) j = Memory.read m j := by
  rw [memory_read_fill g n j hm, if_neg (Nat.not_lt.2 hj)]

/-- GENERATE's stages name one n. -/
theorem n_eq_of_stage {st : Stage} {t n t' n' : Nat} {secret secret' : Word256}
    (h : st = .coeffs t n secret ∨ st = .xs t n secret) (h' : st = .coeffs t' n' secret' ∨ st = .xs t' n' secret') :
    n = n' := by
  obtain rfl | rfl := h <;> obtain h' | h' := h' <;> cases h' <;> rfl

theorem ne_start_of_stage {st : Stage} {t n : Nat} {secret : Word256}
    (h : st = .coeffs t n secret ∨ st = .xs t n secret) : st ≠ .start := by
  obtain rfl | rfl := h <;> nofun

/-- The frame of GENERATE's two fills of the share memory, from entry 0 to n-1. -/
theorem frame_of_filled {s : State} (hs : StoresOk s) {th n : Nat} {secret : Word256}
    (hst : s.stage = .coeffs th n secret ∨ s.stage = .xs th n secret) (gx gy : Nat → Word256)
    (th' n' : Nat) (secret' : Word256) (j : Nat)
    (hst' : s.stage = .coeffs th' n' secret' ∨ s.stage = .xs th' n' secret') (hj : n' ≤ j) :
    Memory.read (Memory.fill s.sx gx n) j = Memory.read s.sx j ∧
    Memory.read (Memory.fill s.sy gy n) j = Memory.read s.sy j := by
  obtain rfl := n_eq_of_stage hst hst'
  exact ⟨memory_read_fill_of_le (wf_of_storeOk hs.sx) gx hj, memory_read_fill_of_le (wf_of_storeOk hs.sy) gy hj⟩

/-- Settles O34: only GENERATE's last step and its failed draw write SX and SY, and both are fills up to n. -/
theorem frameShareMemory : Obligations.FrameShareMemory := by
  intro i s t hs h
  cases exec_cases h with
  | waiting | started | checked | again | coeffsDone | aborted | nothing | computed | sampled =>
    exact ⟨fun _ => ⟨rfl, rfl⟩, fun _ _ _ _ _ _ => ⟨rfl, rfl⟩, fun _ => ⟨rfl, rfl⟩⟩
  | wiped ra th n secret hi hst =>
    exact ⟨fun hg => absurd hi (hg ra), frame_of_filled hs hst _ _, fun h0 => absurd h0 (ne_start_of_stage hst)⟩
  | shared ra th n secret b hi hst =>
    exact ⟨fun hg => absurd hi (hg ra), frame_of_filled hs (.inr hst) _ _,
      fun h0 => absurd h0 (ne_start_of_stage (.inr hst))⟩

/-- Settles O35: none of the three shapes of a core step (a draw, a completion, an abort) sets one of these. -/
theorem frameHostRegisters : Obligations.FrameHostRegisters := by
  intro i s t h
  cases exec_cases h <;> simp [drawing, completed, Machine.aborted]

/-! ### FATAL -/

/-- Every fault of o is INTERNAL_FAULT and carries the state of an aborting completion. -/
def FaultsByAbort (o : Host.Outcome State Fault Refusal) : Prop :=
  ∀ f, o = .fault f → ∃ u, f = .internalFault (abortState .internalFault u)

theorem faultsByAbort_next (t : State) : FaultsByAbort (.next t) := fun _ h => by cases h

theorem faultsByAbort_takeError (e : CmdError) (s : State) : FaultsByAbort (takeError e s) := by
  intro f hf
  unfold takeError at hf
  split at hf <;> cases hf
  rename_i he
  exact ⟨s, by rw [he]⟩

theorem faultsByAbort_unaryOp (op : Nat → Except CmdError Nat) (rd ra : RegIdx) (s : State) :
    FaultsByAbort (unaryOp op rd ra s) := by
  obtain ⟨-, h⟩ | ⟨-, ⟨e, -, h⟩ | ⟨v, -, h⟩⟩ := unaryOp_cases op rd ra s <;> rw [h]
  · exact faultsByAbort_takeError _ s
  · exact faultsByAbort_takeError e s
  · exact faultsByAbort_next _

theorem faultsByAbort_binaryOp (op : Nat → Nat → Except CmdError Nat) (rd ra rb : RegIdx) (s : State) :
    FaultsByAbort (binaryOp op rd ra rb s) := by
  obtain ⟨-, h⟩ | ⟨-, -, ⟨e, -, h⟩ | ⟨v, -, h⟩⟩ := binaryOp_cases op rd ra rb s <;> rw [h]
  · exact faultsByAbort_takeError _ s
  · exact faultsByAbort_takeError e s
  · exact faultsByAbort_next _

theorem faultsByAbort_execRand (rd : RegIdx) (s : State) : FaultsByAbort (execRand rd s) := by
  unfold execRand
  split
  · split
    · exact faultsByAbort_next _
    · exact faultsByAbort_takeError _ s
    · exact faultsByAbort_next _
  all_goals exact faultsByAbort_next _

theorem faultsByAbort_execRandnz (rd : RegIdx) (s : State) : FaultsByAbort (execRandnz rd s) := by
  unfold execRandnz
  split
  · split
    · exact faultsByAbort_next _
    · exact faultsByAbort_takeError _ s
    · exact faultsByAbort_next _
    · exact faultsByAbort_next _
  all_goals exact faultsByAbort_next _

theorem faultsByAbort_generateStart (ra : RegIdx) (s : State) : FaultsByAbort (generateStart ra s) := by
  unfold generateStart
  split
  · exact faultsByAbort_takeError _ s
  split
  · exact faultsByAbort_takeError _ s
  split
  · exact faultsByAbort_takeError _ s
  · exact faultsByAbort_next _

theorem faultsByAbort_generateCoeffs (t n : Nat) (secret : Word256) (s : State) :
    FaultsByAbort (generateCoeffs t n secret s) := by
  unfold generateCoeffs
  split
  · exact faultsByAbort_next _
  · exact faultsByAbort_takeError _ _
  · exact faultsByAbort_next _
  · split
    · exact faultsByAbort_next _
    · exact faultsByAbort_takeError _ _

theorem faultsByAbort_generateXs (t n : Nat) (s : State) : FaultsByAbort (generateXs t n s) := by
  unfold generateXs
  split
  · exact faultsByAbort_next _
  · exact faultsByAbort_takeError _ _
  · exact faultsByAbort_next _
  · exact faultsByAbort_next _

theorem faultsByAbort_execGenerate (ra : RegIdx) (s : State) : FaultsByAbort (execGenerate ra s) := by
  unfold execGenerate
  split
  · exact faultsByAbort_generateCoeffs _ _ _ s
  · exact faultsByAbort_generateXs _ _ s
  all_goals exact faultsByAbort_generateStart ra s

theorem faultsByAbort_execReconstruct (rd : RegIdx) (s : State) : FaultsByAbort (execReconstruct rd s) := by
  unfold execReconstruct
  split
  · exact faultsByAbort_takeError _ s
  split
  · exact faultsByAbort_takeError _ s
  split
  · exact faultsByAbort_takeError _ s
  · exact faultsByAbort_next _

/-- A command stops with a fault only through the error entry. -/
theorem faultsByAbort_exec (i : Instr) (s : State) : FaultsByAbort (exec i s) := by
  cases i with
  | nop => exact faultsByAbort_next _
  | add rd ra rb => exact faultsByAbort_binaryOp (fun a b => .ok (fadd a b)) rd ra rb s
  | sub rd ra rb => exact faultsByAbort_binaryOp (fun a b => .ok (fsub a b)) rd ra rb s
  | mul rd ra rb => exact faultsByAbort_binaryOp (fun a b => .ok (fmul a b)) rd ra rb s
  | inv rd ra => exact faultsByAbort_unaryOp (finvChecked s.params.invAlgo) rd ra s
  | div rd ra rb => exact faultsByAbort_binaryOp (fdiv s.params.invAlgo) rd ra rb s
  | rand rd => exact faultsByAbort_execRand rd s
  | randnz rd => exact faultsByAbort_execRandnz rd s
  | generate ra => exact faultsByAbort_execGenerate ra s
  | reconstruct rd => exact faultsByAbort_execReconstruct rd s

/-- No core turn that answers a next state changes OVERRUN or FATAL. -/
theorem coreTurn_overrun_fatal {s t : State} (h : coreTurn s = .next t) :
    t.overrun = s.overrun ∧ t.fatal = s.fatal := by
  cases hp : s.phase with
  | idle =>
    rw [coreTurn_idle hp] at h
    cases h
    exact ⟨rfl, rfl⟩
  | exec =>
    cases hd : decode s.cur with
    | none =>
      rw [coreTurn_illegal hp hd, takeError_eq s (by decide)] at h
      cases h
      exact ⟨rfl, rfl⟩
    | some i =>
      rw [coreTurn_command hp hd] at h
      obtain ⟨-, -, ho, hf, -⟩ := frameHostRegisters i s t h
      exact ⟨ho, hf⟩

theorem answerDraw_overrun_fatal (d : Option Nat) (r : Reply) (s : State) :
    (answerDraw d r s).overrun = s.overrun ∧ (answerDraw d r s).fatal = s.fatal := by
  obtain ⟨-, -, h⟩ | ⟨-, h⟩ := answerDraw_cases d r s <;> rw [h]
  · exact ⟨rfl, rfl⟩
  · exact ⟨rfl, rfl⟩

/-! ### Addresses of the control registers -/

/-- An offset is fixed, bits 1:0 apart, by its word number. -/
theorem and_word_eq {a : Addr} {w : Nat} (h : a.toNat / 4 = w) : a &&& 0xFFC = BitVec.ofNat 12 (4 * w) := by
  apply BitVec.eq_of_toNat_eq
  have hlt := a.isLt
  rw [toNat_and_word, BitVec.toNat_ofNat, h, Nat.mod_eq_of_lt (by omega), Nat.mul_comm]

/-- CTRL, STATUS and CMD each stand at one word of the window (10_state.md R50). -/
theorem word_of_locOfWord (w : Nat) :
    (locOfWord w = .ctrl → w = 2) ∧ (locOfWord w = .status → w = 3) ∧ (locOfWord w = .cmd → w = 6) := by
  unfold locOfWord
  split
  · split <;> simp
  · split_ifs <;> simp

theorem and_word_of_ctrl {a : Addr} (h : locOf a = .ctrl) : a &&& 0xFFC = 0x008 :=
  and_word_eq ((word_of_locOfWord _).1 h)

theorem and_word_of_status {a : Addr} (h : locOf a = .status) : a &&& 0xFFC = 0x00C :=
  and_word_eq ((word_of_locOfWord _).2.1 h)

theorem and_word_of_cmd {a : Addr} (h : locOf a = .cmd) : a &&& 0xFFC = 0x018 :=
  and_word_eq ((word_of_locOfWord _).2.2 h)

/-- A write to CTRL with bit 0 set, next in turn, is the reset of ResetsNext. -/
theorem resetsNext_of_ctrl {s : State} {a : Addr} {v : Word32} (hu : upcoming s = .host (.write a v))
    (ha : locOf a = .ctrl) (hv : v.getLsbD 0 = true) : ResetsNext s :=
  ⟨a, v, hu, and_word_of_ctrl ha, hv⟩

/-! ### FATAL and OVERRUN under a host access -/

theorem unlessBusy_fatal {s t : State} (h : t.fatal = s.fatal) : (unlessBusy s t).fatal = s.fatal := by
  unfold unlessBusy
  split
  · rfl
  · exact h

theorem writeSX_flags (k : Fin 8) (v : Word32) (s : State) :
    (writeSX k v s).fatal = s.fatal ∧ (writeSX k v s).overrun = s.overrun := by
  unfold writeSX; split <;> exact ⟨rfl, rfl⟩

theorem writeSY_flags (k : Fin 8) (v : Word32) (s : State) :
    (writeSY k v s).fatal = s.fatal ∧ (writeSY k v s).overrun = s.overrun := by
  unfold writeSY; split <;> exact ⟨rfl, rfl⟩

/-- Only the reset through CTRL changes FATAL. -/
theorem writeLoc_fatal (l : Loc) (v : Word32) (s : State) :
    (writeLoc l v s).fatal = s.fatal ∨ (l = .ctrl ∧ v.getLsbD 0 = true ∧ writeLoc l v s = softReset s) := by
  cases l with
  | ctrl =>
    rw [writeLoc]
    split
    · rename_i hv
      exact .inr ⟨rfl, hv, rfl⟩
    · exact .inl rfl
  | cmd =>
    rw [writeLoc, writeCmd]
    split <;> exact .inl rfl
  | genT | genN | recBase | recCount | sidx | freg => exact .inl (unlessBusy_fatal rfl)
  | sx k => exact .inl (unlessBusy_fatal (writeSX_flags k v s).1)
  | sy k => exact .inl (unlessBusy_fatal (writeSY_flags k v s).1)
  | status | ie | id | caps | errcode | entropyCount | reserved => exact .inl rfl

theorem hostRead_fatal (a : Addr) (s : State) : (hostRead a s).fatal = s.fatal := by
  unfold hostRead
  split <;> rfl

/-- A step keeps FATAL, or is the reset. -/
theorem step_fatal {s t : State} (h : step s = .next t) :
    t.fatal = s.fatal ∨ (ResetsNext s ∧ t.fatal = false) := by
  obtain ⟨-, ht⟩ | ⟨a, hu, rfl⟩ | ⟨d, r, -, rfl⟩ := step_cases h
  · exact .inl ((coreTurn_overrun_fatal ht).2.trans (advance_fatal s))
  · cases a with
    | read a => exact .inl ((hostRead_fatal a _).trans (advance_fatal s))
    | write a v =>
      obtain hf | ⟨hl, hv, hreset⟩ := writeLoc_fatal (locOf a) v (advance s)
      · exact .inl (hf.trans (advance_fatal s))
      · refine .inr ⟨resetsNext_of_ctrl hu hl hv, ?_⟩
        rw [hostAccess, hreset, softReset_fatal]
  · exact .inl ((answerDraw_overrun_fatal d r _).2.trans (advance_fatal s))

/-- A write to CMD is dropped while the block is busy or FATAL. -/
theorem writeCmd_blocked {s : State} (w : Word32) (h : s.phase = .exec ∨ s.fatal = true) :
    hostAccess (.write 0x018 w) s = setOverrun s := by
  have hb : (s.busy || s.fatal) = true := by simpa using h
  show writeCmd w s = setOverrun s
  rw [writeCmd, if_pos hb]

/-- Settles O46: a fault comes from the error entry, and a step keeps FATAL unless it is the reset. -/
theorem fatalLocksUntilReset : Obligations.FatalLocksUntilReset := by
  refine ⟨fun i s left h => ?_, fun s t h hs => ?_, fun s t h hs => ?_, fun s w hs => writeCmd_blocked w (.inr hs)⟩
  · obtain ⟨u, hu⟩ := faultsByAbort_exec i s _ h
    cases hu
    simp
  · obtain hf | ⟨-, hf⟩ := step_fatal h
    · exact hf.trans hs
    · exact hf
  · obtain hf | ⟨hr, -⟩ := step_fatal h
    · exact .inl (hf.trans hs)
    · exact .inr hr

/-! ### What a busy block drops -/

/-- A location whose write a busy block drops with OVERRUN; CMD, which FATAL also blocks, is not among them
(10_state.md R57). -/
def dropsWhileBusy : Loc → Bool
  | .genT | .genN | .recBase | .recCount | .sidx | .freg _ _ | .sx _ | .sy _ => true
  | .id | .caps | .ctrl | .status | .errcode | .ie | .cmd | .entropyCount | .reserved => false

theorem dropsWhileBusy_locOfWord (w : Nat) :
    dropsWhileBusy (locOfWord w) = true ↔ (7 ≤ w ∧ w < 12) ∨ (0x40 ≤ w ∧ w < 0xD0) := by
  unfold locOfWord
  split
  · interval_cases w <;> decide
  · split_ifs <;> simp only [dropsWhileBusy, true_iff, Bool.false_eq_true, false_iff] <;> omega

/-- They are the offsets 0x01C to 0x02F and the data windows. -/
theorem dropsWhileBusy_iff (a : Addr) : dropsWhileBusy (locOf a) = true ↔
    (0x01C ≤ a.toNat ∧ a.toNat < 0x030) ∨ (0x100 ≤ a.toNat ∧ a.toNat < 0x340) := by
  rw [locOf, dropsWhileBusy_locOfWord]
  omega

theorem writeLoc_busy {l : Loc} {s : State} (hp : s.phase = .exec) (hl : dropsWhileBusy l = true) (v : Word32) :
    writeLoc l v s = setOverrun s := by
  cases l with
  | genT | genN | recBase | recCount | sidx | freg | sx | sy => exact unlessBusy_exec _ hp
  | id | caps | ctrl | status | errcode | ie | cmd | entropyCount | reserved => cases hl

/-! ### OVERRUN under a step -/

/-- A write of an idle block that leaves OVERRUN sets it exactly when it is dropped. -/
theorem unlessBusy_overrun {s t : State} (h : t.overrun = s.overrun) :
    (unlessBusy s t).overrun = s.overrun ∨ (s.phase = .exec ∧ (unlessBusy s t).overrun = true) := by
  cases hp : s.phase with
  | idle => exact .inl (by rw [unlessBusy_idle t hp, h])
  | exec => exact .inr ⟨rfl, by rw [unlessBusy_exec t hp, setOverrun_overrun]⟩

/-- A write keeps OVERRUN, sets it where it is blocked, or clears it by the reset or by a 1 to its bit. -/
theorem writeLoc_overrun (l : Loc) (v : Word32) (s : State) :
    (writeLoc l v s).overrun = s.overrun ∨
    ((writeLoc l v s).overrun = true ∧
      ((l = .cmd ∧ (s.phase = .exec ∨ s.fatal = true)) ∨ (s.phase = .exec ∧ dropsWhileBusy l = true))) ∨
    ((writeLoc l v s).overrun = false ∧
      ((l = .ctrl ∧ v.getLsbD 0 = true) ∨ (l = .status ∧ v.getLsbD 3 = true))) := by
  have hdrop : ∀ {t : State}, writeLoc l v s = unlessBusy s t → t.overrun = s.overrun → dropsWhileBusy l = true →
      (writeLoc l v s).overrun = s.overrun ∨ ((writeLoc l v s).overrun = true ∧
        ((l = .cmd ∧ (s.phase = .exec ∨ s.fatal = true)) ∨ (s.phase = .exec ∧ dropsWhileBusy l = true))) := by
    intro t hw ht hl
    rw [hw]
    exact (unlessBusy_overrun ht).imp_right fun ⟨hp, ho⟩ => ⟨ho, .inr ⟨hp, hl⟩⟩
  cases l with
  | genT | genN | recBase | recCount | sidx | freg => exact (hdrop rfl rfl rfl).imp_right .inl
  | sx k => exact (hdrop rfl (writeSX_flags k v s).2 rfl).imp_right .inl
  | sy k => exact (hdrop rfl (writeSY_flags k v s).2 rfl).imp_right .inl
  | ctrl =>
    rw [writeLoc]
    split
    · rename_i hv
      exact .inr (.inr ⟨rfl, .inl ⟨rfl, hv⟩⟩)
    · exact .inl rfl
  | status =>
    rw [writeLoc, writeStatus_overrun]
    cases hv : v.getLsbD 3
    · exact .inl (by simp)
    · exact .inr (.inr ⟨by simp, .inr ⟨rfl, rfl⟩⟩)
  | cmd =>
    rw [writeLoc, writeCmd]
    split
    · rename_i hb
      exact .inr (.inl ⟨rfl, .inl ⟨rfl, by simpa using hb⟩⟩)
    · exact .inl rfl
  | ie | id | caps | errcode | entropyCount | reserved => exact .inl rfl

/-- The next turn is an access that the block will answer with OVERRUN and nothing else (10_state.md R57). -/
def BlockedNext (s : State) : Prop :=
  (∃ a v, upcoming s = .host (.write a v) ∧
    ((a &&& 0xFFC = 0x018 ∧ (s.phase = .exec ∨ s.fatal = true)) ∨
      (s.phase = .exec ∧ ((0x01C ≤ a.toNat ∧ a.toNat < 0x030) ∨ (0x100 ≤ a.toNat ∧ a.toNat < 0x340))))) ∨
  (∃ a, upcoming s = .host (.read a) ∧ s.phase = .exec ∧ 0x100 ≤ a.toNat ∧ a.toNat < 0x340)

/-- The next turn writes a 1 to STATUS.OVERRUN. -/
def ClearsOverrunNext (s : State) : Prop :=
  ∃ a v, upcoming s = .host (.write a v) ∧ a &&& 0xFFC = 0x00C ∧ v.getLsbD 3 = true

/-- The four things a step can do to OVERRUN. -/
theorem step_overrun {s t : State} (h : step s = .next t) :
    t.overrun = s.overrun ∨ (t.overrun = true ∧ BlockedNext s) ∨
    (t.overrun = false ∧ (ResetsNext s ∨ ClearsOverrunNext s)) := by
  have hadv := advance_overrun s
  obtain ⟨-, ht⟩ | ⟨a, hu, rfl⟩ | ⟨d, r, -, rfl⟩ := step_cases h
  · exact .inl ((coreTurn_overrun_fatal ht).1.trans hadv)
  · cases a with
    | read a =>
      by_cases hb : s.phase = .exec ∧ (locOf a).isWindow = true
      · obtain ⟨hp, hw⟩ := hb
        rw [hostRead_blocked ((advance_phase s).trans hp) hw]
        exact .inr (.inl ⟨rfl, .inr ⟨a, hu, hp, (isWindow_iff a).1 hw⟩⟩)
      · have hopen : (advance s).phase = .idle ∨ (locOf a).isWindow = false := by
          rw [advance_phase]
          cases hp : s.phase with
          | idle => exact .inl rfl
          | exec => exact .inr (by simpa [hp] using hb)
        rw [hostRead_open hopen]
        exact .inl hadv
    | write a v =>
      obtain ho | ⟨ho, hwhy⟩ | ⟨ho, hwhy⟩ := writeLoc_overrun (locOf a) v (advance s)
      · exact .inl (ho.trans hadv)
      · rw [advance_phase, advance_fatal, dropsWhileBusy_iff] at hwhy
        exact .inr (.inl ⟨ho, .inl ⟨a, v, hu, hwhy.imp_left fun ⟨hl, hc⟩ => ⟨and_word_of_cmd hl, hc⟩⟩⟩)
      · refine .inr (.inr ⟨ho, ?_⟩)
        obtain ⟨hl, hv⟩ | ⟨hl, hv⟩ := hwhy
        · exact .inl (resetsNext_of_ctrl hu hl hv)
        · exact .inr ⟨a, v, hu, and_word_of_status hl, hv⟩
  · exact .inl ((answerDraw_overrun_fatal d r _).1.trans hadv)

/-- Settles O54: a dropped write and a blocked read are setOverrun, and step_overrun lists what else a step can do. -/
theorem blockedAccesses : Obligations.BlockedAccesses := by
  refine ⟨fun s v hb => writeCmd_blocked v hb,
    fun s a v hp ha => writeLoc_busy hp ((dropsWhileBusy_iff a).2 ha) v,
    fun s a hp h1 h2 => hostRead_blocked hp ((isWindow_iff a).2 ⟨h1, h2⟩),
    fun s t h hs ht => ?_, fun s t h hs => ?_⟩
  · obtain ho | ⟨-, hb⟩ | ⟨ho, -⟩ := step_overrun h
    · rw [hs, ht] at ho
      cases ho
    · exact hb
    · rw [ht] at ho
      cases ho
  · obtain ho | ⟨ho, -⟩ | ⟨-, hc⟩ := step_overrun h
    · exact .inl (ho.trans hs)
    · exact .inl ho
    · exact .inr hc

/-! ### The plain registers -/

/-- A read outside the data windows gives the value there, whatever the phase. -/
theorem read_plain {a : Addr} {l : Loc} (hl : locOf a = l) (hw : l.isWindow = false) (s : State) :
    hostAccess (.read a) s = toHost (locValue l s) s := by
  subst hl
  exact hostRead_open (.inr hw)

theorem read_plain_value {a : Addr} {l : Loc} (hl : locOf a = l) (hw : l.isWindow = false) (s : State) :
    (hostAccess (.read a) s).hostData = locValue l s := by
  rw [read_plain hl hw, toHost_hostData]

theorem write_at {a : Addr} {l : Loc} (hl : locOf a = l) (v : Word32) (s : State) :
    hostAccess (.write a v) s = writeLoc l v s := by
  rw [hostAccess, hl]

/-- Settles O50: every such address is the location `reserved`. -/
theorem reservedOffsets : Obligations.ReservedOffsets := by
  intro s a v ha
  exact ⟨read_plain (locOf_reserved ha) rfl s, write_at (locOf_reserved ha) v s⟩

/-- The two halves of CAPS (10_state.md R63). -/
theorem capsWord_halves (p : Params) :
    (capsWord p).extractLsb' 0 16 = BitVec.ofNat 16 p.maxShares ∧ (capsWord p).extractLsb' 16 16 = 0x0010 := by
  unfold capsWord
  constructor
  · exact BitVec.extractLsb'_append_eq_right
  · exact BitVec.extractLsb'_append_eq_left

/-- Settles O51: each offset is its register, which reads its field; a parameter register takes an idle write. -/
theorem plainRegisters : Obligations.PlainRegisters := by
  intro s v
  have hread : ∀ {a : Addr} {l : Loc}, locOf a = l → l.isWindow = false →
      (hostAccess (.read a) s).hostData = locValue l s := fun hl hw => read_plain_value hl hw s
  have hcaps := capsWord_halves s.params
  refine ⟨hread (l := .id) rfl rfl, ?_, hread (l := .cmd) rfl rfl, hread (l := .genT) rfl rfl,
    hread (l := .genN) rfl rfl, hread (l := .recBase) rfl rfl, hread (l := .recCount) rfl rfl,
    hread (l := .sidx) rfl rfl, hread (l := .entropyCount) rfl rfl, ⟨rfl, rfl, rfl, rfl⟩, fun hp => ?_⟩
  · rw [hread (l := .caps) rfl rfl]
    exact hcaps
  · exact ⟨unlessBusy_idle _ hp, unlessBusy_idle _ hp, unlessBusy_idle _ hp, unlessBusy_idle _ hp,
      unlessBusy_idle _ hp⟩

theorem busy_eq_decide (s : State) : s.busy = decide (s.phase = .exec) := by
  cases hp : s.phase <;> simp [State.busy, hp]

/-- Bit n of STATUS is the flag whose place n is (10_state.md R53). -/
theorem statusWord_bit (s : State) (n : Nat) : (statusWord s).getLsbD n =
    (if n = 0 then decide (s.phase = .exec) else if n = 1 then s.done else if n = 2 then s.err
      else if n = 3 then s.overrun else if n = 4 then s.fatal else false) := by
  simp only [statusWord, BitVec.getLsbD_or, bitAt_bit, busy_eq_decide, Nat.reduceLT]
  split_ifs <;> simp_all

/-- Settles O56: the bits of the word STATUS reads as, and the write field by field. -/
theorem statusRegister : Obligations.StatusRegister := by
  intro s v n
  constructor
  · rw [read_plain_value (l := .status) rfl rfl]
    exact statusWord_bit s n
  · rw [write_at (l := .status) rfl, writeLoc, writeStatus]
    cases v.getLsbD 1 <;> cases v.getLsbD 2 <;> cases v.getLsbD 3 <;> simp

/-- Settles O57: ERRCODE reads the code of the latched error, by the table of R270. -/
theorem errorCodeNumbers : Obligations.ErrorCodeNumbers := by
  intro s
  rw [read_plain_value (l := .errcode) rfl rfl, locValue, errcodeWord]
  cases s.errcode with
  | none => rfl
  | some e => cases e <;> rfl

/-- Settles O59: a write to CTRL is softReset or nothing, by bit 0. -/
theorem softResetWrite : Obligations.SoftResetWrite := by
  intro s v
  have hwrite : hostAccess (.write 0x008 v) s = if v.getLsbD 0 then softReset s else s := rfl
  refine ⟨fun hv => ?_, fun hv => ?_, read_plain_value (l := .ctrl) rfl rfl s⟩
  · rw [hwrite, if_pos hv]
    rfl
  · rw [hwrite, hv]
    rfl

/-- Settles O41: every field at the value R76 gives. -/
theorem resetValues : Obligations.ResetValues := by
  refine ⟨fun r => ?_, fun j => ⟨rfl, rfl⟩, fun j => ⟨rfl, rfl⟩, rfl, rfl, rfl, by decide, rfl, by decide, rfl,
    rfl, rfl, rfl, rfl, rfl, rfl, rfl, ?_, rfl⟩
  · simp [readField, State.reset]
  · rw [read_plain_value (l := .caps) rfl rfl]
    decide

/-! ### The data windows -/

/-- A blocked access to a window sets OVERRUN; a blocked read returns 0 (10_state.md R57). -/
theorem window_busy {a : Addr} {s : State} (hp : s.phase = .exec) (hw : (locOf a).isWindow = true) (v : Word32) :
    hostAccess (.read a) s = { s with overrun := true, hostData := 0 } ∧
    hostAccess (.write a v) s = { s with overrun := true } := by
  have hdrop := (dropsWhileBusy_iff a).2 (.inr ((isWindow_iff a).1 hw))
  exact ⟨hostRead_blocked hp hw, writeLoc_busy hp hdrop v⟩

theorem window_idle_read {a : Addr} {l : Loc} {s : State} (hl : locOf a = l) (hp : s.phase = .idle) :
    hostAccess (.read a) s = toHost (locValue l s) s := by
  subst hl
  exact hostRead_open (.inl hp)

/-- Settles O52: an idle write is writeRaw of F[r] with word k set, an idle read is word k of F[r]. -/
theorem fregWindow : Obligations.FregWindow := by
  intro s r k a v ha
  have hl : locOf a = .freg r k := locOf_freg ha
  refine ⟨fun hp => ?_, fun hp => window_busy hp (by rw [hl]; rfl) v⟩
  have hwrite : hostAccess (.write a v) s = writeRaw r (setWord (readField r s) k v) s := by
    rw [write_at hl]
    exact unlessBusy_idle _ hp
  rw [window_idle_read hl hp, hwrite, readField_writeRaw_same]
  exact ⟨rfl, wordOf_setWord_same _ k v, fun j hj => wordOf_setWord_other _ v hj,
    fun q hq => readField_writeRaw_other _ s hq, rfl⟩

/-- A store with word k of entry e replaced: that word, the other words of e, the other entries. -/
theorem read_write_setWord {m : Memory} (hm : Memory.wf m = true) (e : Nat) (k : Fin 8) (v : Word32) :
    let m' := Memory.write m e (setWord (Memory.read m e) k v)
    wordOf (Memory.read m' e) k = v ∧
    (∀ j : Fin 8, j ≠ k → wordOf (Memory.read m' e) j = wordOf (Memory.read m e) j) ∧
    ∀ e', e' ≠ e → Memory.read m' e' = Memory.read m e' := by
  intro m'
  rw [memory_read_write_same e _ hm]
  exact ⟨wordOf_setWord_same _ k v, fun j hj => wordOf_setWord_other _ v hj,
    fun e' he => memory_read_write_other m _ he⟩

theorem writeSX_in {s : State} (h : s.sidx.toNat < s.params.maxShares) (k : Fin 8) (v : Word32) :
    writeSX k v s =
      { s with sx := Memory.write s.sx s.sidx.toNat (setWord (Memory.read s.sx s.sidx.toNat) k v) } :=
  if_pos (decide_eq_true h)

theorem writeSY_in {s : State} (h : s.sidx.toNat < s.params.maxShares) (k : Fin 8) (v : Word32) :
    writeSY k v s =
      { s with sy := Memory.write s.sy s.sidx.toNat (setWord (Memory.read s.sy s.sidx.toNat) k v) } :=
  if_pos (decide_eq_true h)

/-- Settles O53: by the location of the address, the phase, and whether SIDX names an entry. -/
theorem shareWindows : Obligations.ShareWindows := by
  intro s k ax ay v hax hay hs
  have hlx : locOf ax = .sx k := locOf_sx hax
  have hly : locOf ay = .sy k := locOf_sy hay
  have hsx : Memory.wf s.sx = true := wf_of_storeOk hs.sx
  have hsy : Memory.wf s.sy = true := wf_of_storeOk hs.sy
  refine ⟨fun hp hin => ?_, fun hp hout => ?_, fun hp a ha => ?_⟩
  · have hr : sidxInRange s = true := decide_eq_true hin
    have hwx : hostAccess (.write ax v) s = writeSX k v s := (write_at hlx v s).trans (unlessBusy_idle _ hp)
    have hwy : hostAccess (.write ay v) s = writeSY k v s := (write_at hly v s).trans (unlessBusy_idle _ hp)
    refine ⟨?_, ?_, ⟨_, ?_, read_write_setWord hsx _ k v⟩, ⟨_, ?_, read_write_setWord hsy _ k v⟩⟩
    · rw [window_idle_read hlx hp, toHost_hostData, locValue, if_pos hr, wordOf]
    · rw [window_idle_read hly hp, toHost_hostData, locValue, if_pos hr, wordOf]
    · rw [hwx, writeSX_in hin]
    · rw [hwy, writeSY_in hin]
  · have hr : ¬ sidxInRange s = true := by simpa [sidxInRange] using hout
    refine ⟨?_, ?_, ?_, ?_⟩
    · rw [window_idle_read hlx hp, locValue, if_neg hr]
      rfl
    · rw [window_idle_read hly hp, locValue, if_neg hr]
      rfl
    · exact (write_at hlx v s).trans ((unlessBusy_idle _ hp).trans (if_neg hr))
    · exact (write_at hly v s).trans ((unlessBusy_idle _ hp).trans (if_neg hr))
  · simp only [List.mem_cons, List.not_mem_nil, or_false] at ha
    obtain rfl | rfl := ha
    · exact window_busy hp (by rw [hlx]; rfl) v
    · exact window_busy hp (by rw [hly]; rfl) v

/-! ### The hidden stores -/

/-- s with other contents of A and BUF. -/
def withHidden (a b : Memory) (s : State) : State := { s with coeffA := a, batchBuf := b }

theorem sameButHidden_iff {s t : State} : SameButHidden s t ↔ ∃ a b, t = withHidden a b s := by
  constructor
  · intro h
    exact ⟨t.coeffA, t.batchBuf, h.symm⟩
  · rintro ⟨a, b, rfl⟩
    rfl

theorem locValue_withHidden (l : Loc) (a b : Memory) (s : State) : locValue l (withHidden a b s) = locValue l s := by
  cases l <;> rfl

theorem hostRead_withHidden (x : Addr) (a b : Memory) (s : State) :
    hostRead x (withHidden a b s) = withHidden a b (hostRead x s) := by
  have hbusy : (withHidden a b s).busy = s.busy := rfl
  unfold hostRead
  rw [hbusy, locValue_withHidden]
  split <;> rfl

theorem unlessBusy_withHidden {a b : Memory} {s t u : State} (h : u = withHidden a b t) :
    unlessBusy (withHidden a b s) u = withHidden a b (unlessBusy s t) := by
  have hbusy : (withHidden a b s).busy = s.busy := rfl
  subst h
  unfold unlessBusy
  rw [hbusy]
  split <;> rfl

theorem writeSX_withHidden (k : Fin 8) (v : Word32) (a b : Memory) (s : State) :
    writeSX k v (withHidden a b s) = withHidden a b (writeSX k v s) := by
  have hin : sidxInRange (withHidden a b s) = sidxInRange s := rfl
  unfold writeSX
  rw [hin]
  split <;> rfl

theorem writeSY_withHidden (k : Fin 8) (v : Word32) (a b : Memory) (s : State) :
    writeSY k v (withHidden a b s) = withHidden a b (writeSY k v s) := by
  have hin : sidxInRange (withHidden a b s) = sidxInRange s := rfl
  unfold writeSY
  rw [hin]
  split <;> rfl

theorem writeCmd_withHidden (w : Word32) (a b : Memory) (s : State) :
    writeCmd w (withHidden a b s) = withHidden a b (writeCmd w s) := by
  have hblocked : ((withHidden a b s).busy || (withHidden a b s).fatal) = (s.busy || s.fatal) := rfl
  unfold writeCmd
  rw [hblocked]
  split <;> rfl

/-- A write leaves A and BUF where they are, but for the reset, which zeroes them. -/
theorem writeLoc_withHidden (l : Loc) (v : Word32) (a b : Memory) (s : State) :
    ∃ a' b', writeLoc l v (withHidden a b s) = withHidden a' b' (writeLoc l v s) := by
  cases l with
  | ctrl =>
    rw [writeLoc, writeLoc]
    split
    · exact ⟨[], [], rfl⟩
    · exact ⟨a, b, rfl⟩
  | cmd => exact ⟨a, b, writeCmd_withHidden v a b s⟩
  | sx k => exact ⟨a, b, unlessBusy_withHidden (writeSX_withHidden k v a b s)⟩
  | sy k => exact ⟨a, b, unlessBusy_withHidden (writeSY_withHidden k v a b s)⟩
  | genT | genN | recBase | recCount | sidx | freg => exact ⟨a, b, unlessBusy_withHidden rfl⟩
  | status | ie | id | caps | errcode | entropyCount | reserved => exact ⟨a, b, rfl⟩

theorem hostAccess_withHidden (acc : Access) (a b : Memory) (s : State) :
    ∃ a' b', hostAccess acc (withHidden a b s) = withHidden a' b' (hostAccess acc s) := by
  cases acc with
  | read x => exact ⟨a, b, hostRead_withHidden x a b s⟩
  | write x v => exact writeLoc_withHidden (locOf x) v a b s

/-- Settles O60: an access commutes with the contents of A and BUF, and a busy block that goes idle has completed. -/
theorem hiddenStoresUnseen : Obligations.HiddenStoresUnseen := by
  constructor
  · intro s t acc h
    obtain ⟨a, b, rfl⟩ := sameButHidden_iff.1 h
    obtain ⟨a', b', hacc⟩ := hostAccess_withHidden acc a b s
    rw [hacc]
    exact ⟨sameButHidden_iff.2 ⟨a', b', rfl⟩, rfl, rfl⟩
  · intro i s t hs h ht
    have hbusy : ¬ s.phase = .idle := by rw [hs]; nofun
    cases exec_cases h with
    | waiting | started | checked | again | coeffsDone => exact absurd ht hbusy
    | aborted | wiped | nothing | computed | sampled | shared => exact ⟨rfl, rfl⟩

end Sys2Proof.Proofs
end

section
/-! PROOFS, 20_memory.md. A host access depends on its address only through the location it reaches, and that location
decides whether a busy block blocks a read. -/

namespace Sys2Proof.Proofs

open Sys2Proof.Machine Sys2Proof.Laws

/-- A read sees its address only through the location it reaches. -/
theorem hostRead_congr {a b : Addr} (h : locOf a = locOf b) (s : State) :
    hostAccess (.read a) s = hostAccess (.read b) s := by
  simp only [hostAccess, hostRead, h]

/-- Settles O48: an access depends on the location of its address alone, which bits 1:0 do not change. -/
theorem lowAddressBitsIgnored : Obligations.LowAddressBitsIgnored := by
  intro s a v
  have hloc : locOf a = locOf (a &&& 0xFFC) := (locOf_and a).symm
  exact ⟨hostRead_congr hloc s, write_at hloc v s, fun _ hu => step_turn hu⟩

/-- Settles O49: a read of a data window while busy is blocked; every other read only gives the value to the host. -/
theorem readSideEffects : Obligations.ReadSideEffects := by
  intro s a
  refine ⟨fun hp h1 h2 => hostRead_blocked hp ((isWindow_iff a).2 ⟨h1, h2⟩), fun h => ⟨locValue (locOf a) s, ?_⟩⟩
  have hopen : s.phase = .idle ∨ (locOf a).isWindow = false := by
    refine h.imp_right fun hout => ?_
    rw [← Bool.not_eq_true, isWindow_iff]
    omega
  exact hostRead_open hopen

end Sys2Proof.Proofs
end

section
/-! PROOFS, 30_encoding.md. A command word as a number is its fields at their places, so the fields of an assembled word
are the ones put in, and a word with RSV 0 is assembled from its own fields. By these, decode and encode are inverse;
the mask and match of R126 and the conditions of R128 then say the same of the fields. -/

namespace Sys2Proof.Proofs

/-! ### The fields of a word as numbers -/

/-- A register index moved to one of the three register fields keeps all its bits. -/
theorem toNat_register_shiftLeft (r : RegIdx) {k : Nat} (hk : k ≤ 16) :
    (BitVec.ofNat 32 r.val <<< k).toNat = 2 ^ k * r.val := by
  have hr : (BitVec.ofNat 32 r.val).toNat = r.val := by
    rw [BitVec.toNat_ofNat]
    omega
  have hlt : 2 ^ k * r.val < 2 ^ 32 :=
    calc 2 ^ k * r.val ≤ 2 ^ 16 * r.val := Nat.mul_le_mul_right _ (Nat.pow_le_pow_right (by decide) hk)
      _ < 2 ^ 32 := by omega
  rw [BitVec.toNat_shiftLeft, hr, Nat.shiftLeft_eq, Nat.mul_comm, Nat.mod_eq_of_lt hlt]

/-- The parts of an assembled word do not overlap, so `|` adds them. -/
theorem toNat_encodeFields {opc : Nat} (h : opc < 256) (rd ra rb : RegIdx) :
    (encodeFields opc rd ra rb).toNat = opc + 2 ^ 8 * rd.val + 2 ^ 12 * ra.val + 2 ^ 16 * rb.val := by
  have hrd : opc ||| 2 ^ 8 * rd.val = 2 ^ 8 * rd.val + opc := by
    rw [Nat.or_comm, ← Nat.two_pow_add_eq_or_of_lt h]
  have hra : (2 ^ 8 * rd.val + opc) ||| 2 ^ 12 * ra.val = 2 ^ 12 * ra.val + (2 ^ 8 * rd.val + opc) := by
    rw [Nat.or_comm, ← Nat.two_pow_add_eq_or_of_lt (by omega)]
  have hrb : (2 ^ 12 * ra.val + (2 ^ 8 * rd.val + opc)) ||| 2 ^ 16 * rb.val =
      2 ^ 16 * rb.val + (2 ^ 12 * ra.val + (2 ^ 8 * rd.val + opc)) := by
    rw [Nat.or_comm, ← Nat.two_pow_add_eq_or_of_lt (by omega)]
  have hopc : (BitVec.ofNat 32 opc).toNat = opc := by rw [BitVec.toNat_ofNat, Nat.mod_eq_of_lt (by omega)]
  unfold encodeFields
  rw [BitVec.toNat_or, BitVec.toNat_or, BitVec.toNat_or, hopc, toNat_register_shiftLeft rd (by decide),
    toNat_register_shiftLeft ra (by decide), toNat_register_shiftLeft rb (by decide), hrd, hra, hrb]
  omega

theorem toNat_opcField (w : Word32) : (opcField w).toNat = w.toNat % 2 ^ 8 := by
  simp [opcField]

theorem val_rdField (w : Word32) : (rdField w).val = w.toNat / 2 ^ 8 % 2 ^ 4 := by
  simp [rdField, Nat.shiftRight_eq_div_pow]

theorem val_raField (w : Word32) : (raField w).val = w.toNat / 2 ^ 12 % 2 ^ 4 := by
  simp [raField, Nat.shiftRight_eq_div_pow]

theorem val_rbField (w : Word32) : (rbField w).val = w.toNat / 2 ^ 16 % 2 ^ 4 := by
  simp [rbField, Nat.shiftRight_eq_div_pow]

theorem toNat_rsvField (w : Word32) : (rsvField w).toNat = w.toNat / 2 ^ 20 := by
  have hlt : w.toNat / 2 ^ 20 < 2 ^ 12 := by
    have := w.isLt
    omega
  rw [rsvField, BitVec.extractLsb'_toNat, Nat.shiftRight_eq_div_pow, Nat.mod_eq_of_lt hlt]

/-! ### The fields of an assembled word -/

section
variable {opc : Nat} (h : opc < 256) (rd ra rb : RegIdx)
include h

theorem opcField_encodeFields : (opcField (encodeFields opc rd ra rb)).toNat = opc := by
  rw [toNat_opcField, toNat_encodeFields h]
  omega

theorem rdField_encodeFields : rdField (encodeFields opc rd ra rb) = rd := by
  rw [Fin.ext_iff, val_rdField, toNat_encodeFields h]
  omega

theorem raField_encodeFields : raField (encodeFields opc rd ra rb) = ra := by
  rw [Fin.ext_iff, val_raField, toNat_encodeFields h]
  omega

theorem rbField_encodeFields : rbField (encodeFields opc rd ra rb) = rb := by
  rw [Fin.ext_iff, val_rbField, toNat_encodeFields h]
  omega

theorem rsvField_encodeFields : rsvField (encodeFields opc rd ra rb) = 0 := by
  rw [← BitVec.toNat_inj, toNat_rsvField, toNat_encodeFields h]
  exact Nat.div_eq_of_lt (by omega)

end

/-- A word with RSV 0 is assembled from its own fields. -/
theorem encodeFields_fields {w : Word32} (h : rsvField w = 0) :
    encodeFields (opcField w).toNat (rdField w) (raField w) (rbField w) = w := by
  have hrsv : w.toNat / 2 ^ 20 = 0 := by rw [← toNat_rsvField, h]; rfl
  rw [← BitVec.toNat_inj, toNat_encodeFields (opcField w).isLt, toNat_opcField, val_rdField, val_raField, val_rbField]
  omega

/-! ### Decode and encode are inverse -/

theorem requireZero_eq_ok_iff {unused : Bool} {i j : Instr} :
    requireZero unused i = .ok j ↔ unused = true ∧ i = j := by
  cases unused <;> simp [requireZero]

theorem decode_eq_some_iff {w : Word32} {i : Instr} : decode w = some i ↔ decodeWord w = .ok i := by
  unfold decode
  cases decodeWord w <;> simp

/-- Settles O4: the decoder reads off an assembled word the fields put in, and the unused ones are 0. -/
theorem decodeInvertsEncode : Obligations.DecodeInvertsEncode := by
  intro i
  cases i <;>
    simp [decode_eq_some_iff, encode, decodeWord, requireZero, opcField_encodeFields, rdField_encodeFields,
      raField_encodeFields, rbField_encodeFields, rsvField_encodeFields]

theorem rsvField_of_decodeWord {w : Word32} {i : Instr} (h : decodeWord w = .ok i) : rsvField w = 0 := by
  unfold decodeWord at h
  split at h
  · cases h
  · exact not_not.1 ‹_›

/-- What the decoder answers assembles to the four fields it was read from: an unused field is 0 on both sides. -/
theorem encode_of_decodeWord {w : Word32} {i : Instr} (h : decodeWord w = .ok i) :
    encode i = encodeFields (opcField w).toNat (rdField w) (raField w) (rbField w) := by
  have hrsv := rsvField_of_decodeWord h
  unfold decodeWord at h
  rw [if_neg (not_not.2 hrsv)] at h
  split at h
  -- ADD, SUB, MUL and DIV (R3) use every field; h_11 is an unassigned opcode; the other formats require fields to be 0.
  case h_2 hopc | h_3 hopc | h_4 hopc | h_6 hopc =>
    cases h
    rw [hopc, encode]
  case h_11 => cases h
  all_goals
    rename_i hopc
    obtain ⟨hunused, rfl⟩ := requireZero_eq_ok_iff.1 h
    simp only [Bool.and_eq_true, beq_iff_eq] at hunused
    simp only [hopc, encode, hunused]

/-- Settles O5: the command assembles to the fields of w, and w is assembled from its fields. -/
theorem encodeInvertsDecode : Obligations.EncodeInvertsDecode := by
  intro w i h
  have hw := decode_eq_some_iff.1 h
  rw [encode_of_decodeWord hw, encodeFields_fields (rsvField_of_decodeWord hw)]

/-- Settles O3: the words are the assembled words of the commands. -/
theorem specWordsDecode : Obligations.SpecWordsDecode := by
  have hwords : encode (.sub 3 1 2) = 0x00021302 ∧ encode (.inv 3 1) = 0x00001304 ∧
      encode (.generate 1) = 0x00001020 ∧ encode (.reconstruct 2) = 0x00000221 := by decide
  obtain ⟨hsub, hinv, hgenerate, hreconstruct⟩ := hwords
  unfold Obligations.SpecWordsDecode
  rw [← hsub, ← hinv, ← hgenerate, ← hreconstruct]
  exact ⟨decodeInvertsEncode _, decodeInvertsEncode _, decodeInvertsEncode _, decodeInvertsEncode _⟩

/-! ### The decoder, the opcode map and the three conditions -/

/-- The assembled word of a command matches the command's row. -/
theorem inTable_encode (i : Instr) : inTable (encode i) = true := by
  cases i with
  | nop => exact Laws.EncodeLegal.nop.2
  | add rd ra rb => exact (Laws.EncodeLegal.add rd ra rb).2
  | sub rd ra rb => exact (Laws.EncodeLegal.sub rd ra rb).2
  | mul rd ra rb => exact (Laws.EncodeLegal.mul rd ra rb).2
  | inv rd ra => exact (Laws.EncodeLegal.inv rd ra).2
  | div rd ra rb => exact (Laws.EncodeLegal.div rd ra rb).2
  | rand rd => exact (Laws.EncodeLegal.rand rd).2
  | randnz rd => exact (Laws.EncodeLegal.randnz rd).2
  | generate ra => exact (Laws.EncodeLegal.generate ra).2
  | reconstruct rd => exact (Laws.EncodeLegal.reconstruct rd).2

theorem inTable_of_decode {w : Word32} (h : (decode w).isSome) : inTable w = true := by
  obtain ⟨i, hi⟩ := Option.isSome_iff_exists.1 h
  rw [← encodeInvertsDecode w i hi]
  exact inTable_encode i

/-- A row's mask covers RSV, OPC and the fields its format does not use; its match is 0 in RSV and in the unused fields,
and its OPC selects the row (R124, R126). -/
theorem opcodeTable_masks : ∀ row ∈ opcodeTable,
    (row.mask &&& 0xFFF00000 = 0xFFF00000 ∧ row.matchWord &&& 0xFFF00000 = 0) ∧
    (row.mask &&& row.format.unusedMask = row.format.unusedMask ∧ row.matchWord &&& row.format.unusedMask = 0) ∧
    row.mask.extractLsb' 0 8 = BitVec.allOnes 8 ∧ rowOf row.matchWord = some row := by
  decide

/-- A word that matches by mask and match agrees with the match on every part of the mask. -/
theorem and_of_match {w mask matchWord m : Word32} (h : w &&& mask = matchWord) (hm : mask &&& m = m) :
    w &&& m = matchWord &&& m := by
  rw [← h, BitVec.and_assoc, hm]

/-- The same of a field that the mask covers. -/
theorem extractLsb'_of_match {w mask matchWord : Word32} {k n : Nat} (h : w &&& mask = matchWord)
    (hm : mask.extractLsb' k n = BitVec.allOnes n) : w.extractLsb' k n = matchWord.extractLsb' k n := by
  rw [← h, BitVec.extractLsb'_and, hm, BitVec.and_allOnes]

theorem wellFormed_iff {w : Word32} : wellFormed w = true ↔
    w &&& 0xFFF00000 = 0 ∧ ∃ row, rowOf w = some row ∧ w &&& row.format.unusedMask = 0 := by
  cases hrow : rowOf w <;> simp [wellFormed, reservedClear, opcodeAssigned, unusedClear, hrow]

theorem wellFormed_of_inTable {w : Word32} (h : inTable w = true) : wellFormed w = true := by
  obtain ⟨row, hmem, hmatch⟩ := List.any_eq_true.1 h
  have hw : w &&& row.mask = row.matchWord := beq_iff_eq.1 hmatch
  obtain ⟨⟨hrsv, hrsv0⟩, ⟨hunused, hunused0⟩, hopc, hrow⟩ := opcodeTable_masks row hmem
  have hrowOf : rowOf w = some row := by rw [← hrow, rowOf, rowOf, extractLsb'_of_match hw hopc]
  exact wellFormed_iff.2 ⟨(and_of_match hw hrsv).trans hrsv0, row, hrowOf, (and_of_match hw hunused).trans hunused0⟩

theorem rowOf_eq_some {w : Word32} {row : OpcodeRow} (h : rowOf w = some row) :
    row ∈ opcodeTable ∧ opcField w = row.opc := by
  unfold rowOf at h
  have hopc : (row.opc == w.extractLsb' 0 8) = true :=
    List.find?_some (p := fun r : OpcodeRow => r.opc == w.extractLsb' 0 8) h
  exact ⟨List.mem_of_find?_eq_some h, (beq_iff_eq.1 hopc).symm⟩

/-- A field that a mask covers is 0 in a word that the mask takes to 0. -/
theorem extractLsb'_eq_zero {w m : Word32} (k : Nat) {n : Nat} (h : w &&& m = 0)
    (hm : m.extractLsb' k n = BitVec.allOnes n) : w.extractLsb' k n = 0 :=
  (extractLsb'_of_match h hm).trans BitVec.extractLsb'_zero

/-! The formats that do not use a register field have it 0 in every legal word (30_encoding.md R124). -/

theorem rdField_eq_zero {f : Format} {w : Word32} (h : w &&& f.unusedMask = 0) (hf : f = .n ∨ f = .a) :
    rdField w = 0 := by
  have hm : f.unusedMask.extractLsb' 8 4 = BitVec.allOnes 4 := by rcases hf with rfl | rfl <;> decide
  rw [rdField, extractLsb'_eq_zero 8 h hm]
  rfl

theorem raField_eq_zero {f : Format} {w : Word32} (h : w &&& f.unusedMask = 0) (hf : f = .n ∨ f = .r1) :
    raField w = 0 := by
  have hm : f.unusedMask.extractLsb' 12 4 = BitVec.allOnes 4 := by rcases hf with rfl | rfl <;> decide
  rw [raField, extractLsb'_eq_zero 12 h hm]
  rfl

theorem rbField_eq_zero {f : Format} {w : Word32} (h : w &&& f.unusedMask = 0)
    (hf : f = .n ∨ f = .r2 ∨ f = .r1 ∨ f = .a) : rbField w = 0 := by
  have hm : f.unusedMask.extractLsb' 16 4 = BitVec.allOnes 4 := by rcases hf with rfl | rfl | rfl | rfl <;> decide
  rw [rbField, extractLsb'_eq_zero 16 h hm]
  rfl

/-- A legal word decodes: RSV is 0, OPC is a row's, and the fields the row's format does not use are 0. -/
theorem decode_of_wellFormed {w : Word32} (h : wellFormed w = true) : (decode w).isSome := by
  obtain ⟨hreserved, row, hrow, hunused⟩ := wellFormed_iff.1 h
  obtain ⟨hmem, hopc⟩ := rowOf_eq_some hrow
  have hrsv : rsvField w = 0 := extractLsb'_eq_zero 20 hreserved (by decide)
  have hrd := rdField_eq_zero hunused
  have hra := raField_eq_zero hunused
  have hrb := rbField_eq_zero hunused
  simp only [opcodeTable, List.mem_cons, List.not_mem_nil, or_false] at hmem
  rcases hmem with rfl | rfl | rfl | rfl | rfl | rfl | rfl | rfl | rfl | rfl <;>
    simp [decode, decodeWord, requireZero, hrsv, hopc, hrd, hra, hrb]

/-- Settles O6: decoding implies matching a row, that implies R128's conditions, and they imply decoding. -/
theorem decodeAcceptsTheTable : Obligations.DecodeAcceptsTheTable := by
  intro w
  exact ⟨Bool.eq_iff_iff.2 ⟨inTable_of_decode, fun h => decode_of_wellFormed (wellFormed_of_inTable h)⟩,
    Bool.eq_iff_iff.2 ⟨fun h => inTable_of_decode (decode_of_wellFormed h), wellFormed_of_inTable⟩⟩

end Sys2Proof.Proofs
end

section
/-! PROOFS, 40_field_arithmetic.md. The laws of the field primitives, taken over from ZMod PRIME; the two inverse engines,
which both answer the one inverse; the result of each arithmetic command. Then why INTERNAL_FAULT is unreachable: no
primitive raises it on canonical values, and PolyEval at 0 is the constant term. -/

namespace Sys2Proof.Proofs

open Sys2Proof.Machine Sys2Proof.Laws

/-! ### The ring laws of the primitives (40_field_arithmetic.md R157) -/

theorem fadd_comm (a b : Nat) : fadd a b = fadd b a := by
  simp only [fadd, Nat.add_comm a b]

theorem fmul_comm (a b : Nat) : fmul a b = fmul b a := by
  simp only [fmul, Nat.mul_comm a b]

theorem fmul_assoc (a b c : Nat) : fmul (fmul a b) c = fmul a (fmul b c) := by
  simp only [fmul, Nat.mod_mul_mod, Nat.mul_mod_mod, Nat.mul_assoc]

theorem fmul_zero (a : Nat) : fmul a 0 = 0 := by
  rw [fmul, Nat.mul_zero, Nat.zero_mod]

theorem fmul_one {a : Nat} (ha : a < PRIME) : fmul a 1 = a := by
  rw [fmul, Nat.mul_one, Nat.mod_eq_of_lt ha]

theorem fadd_zero {a : Nat} (ha : a < PRIME) : fadd a 0 = a := by
  rw [fadd_eq_mod ha PRIME_pos, Nat.add_zero, Nat.mod_eq_of_lt ha]

theorem fsub_self {a : Nat} (ha : a < PRIME) : fsub a a = 0 :=
  (fsub_eq_zero_iff ha ha).2 rfl

theorem fadd_assoc {a b c : Nat} (ha : a < PRIME) (hb : b < PRIME) (hc : c < PRIME) :
    fadd (fadd a b) c = fadd a (fadd b c) := by
  have hab := fadd_lt ha hb
  have hbc := fadd_lt hb hc
  apply eq_of_cast (fadd_lt hab hc) (fadd_lt ha hbc)
  rw [fadd_cast hab hc, fadd_cast ha hb, fadd_cast ha hbc, fadd_cast hb hc, add_assoc]

theorem fmul_fadd {b c : Nat} (a : Nat) (hb : b < PRIME) (hc : c < PRIME) :
    fmul a (fadd b c) = fadd (fmul a b) (fmul a c) := by
  have hab := fmul_lt a b
  have hac := fmul_lt a c
  apply eq_of_cast (fmul_lt _ _) (fadd_lt hab hac)
  rw [fmul_cast, fadd_cast hb hc, fadd_cast hab hac, fmul_cast, fmul_cast, mul_add]

theorem fsub_eq_fadd_fsub_zero {a b : Nat} (ha : a < PRIME) (hb : b < PRIME) : fsub a b = fadd a (fsub 0 b) := by
  have hneg := fsub_lt PRIME_pos hb
  apply eq_of_cast (fsub_lt ha hb) (fadd_lt ha hneg)
  rw [fsub_cast ha hb, fadd_cast ha hneg, fsub_cast PRIME_pos hb, Nat.cast_zero, zero_sub, sub_eq_add_neg]

theorem fadd_fsub_cancel {a b : Nat} (ha : a < PRIME) (hb : b < PRIME) : fadd (fsub a b) b = a := by
  have hsub := fsub_lt ha hb
  apply eq_of_cast (fadd_lt hsub hb) ha
  rw [fadd_cast hsub hb, fsub_cast ha hb, sub_add_cancel]

/-! ### Inverses -/

theorem ne_zero_of_fmul_eq_one {a b : Nat} (h : fmul a b = 1) : b ≠ 0 := by
  rintro rfl
  rw [fmul_zero] at h
  cases h

/-- Multiplying by the inverse c of b and then by b gives a back (40_field_arithmetic.md R155). -/
theorem fmul_inverse_cancel {a b c : Nat} (ha : a < PRIME) (h : fmul b c = 1) : fmul (fmul a c) b = a := by
  rw [fmul_assoc, fmul_comm c b, h, fmul_one ha]

/-- A canonical value has at most one canonical inverse. -/
theorem inverse_unique {a b c : Nat} (hb : b < PRIME) (hc : c < PRIME) (hab : fmul a b = 1) (hac : fmul a c = 1) :
    b = c := by
  calc b = fmul (fmul b a) c := (fmul_inverse_cancel hb (by rw [fmul_comm, hac])).symm
    _ = fmul c 1 := by rw [fmul_comm b a, hab, fmul_comm]
    _ = c := fmul_one hc

/-- Products in ZMod PRIME are what the self-check of the engine sees (40_field_arithmetic.md R163, R164). -/
theorem fmul_eq_one_of_cast {a b : Nat} (h : (a : ZMod PRIME) * b = 1) : fmul a b = 1 := by
  apply eq_of_cast (fmul_lt a b) one_lt_PRIME
  rw [fmul_cast, h, Nat.cast_one]

/-- Reducing the engine's signed cofactor keeps its residue. -/
theorem toNat_emod_cast (x : Int) : (((x % PRIME).toNat : Nat) : ZMod PRIME) = x := by
  have hpos : (0 : Int) < PRIME := Int.natCast_pos.2 PRIME_pos
  rw [← Int.cast_natCast, Int.toNat_of_nonneg (Int.emod_nonneg _ hpos.ne'), ZMod.intCast_mod]

/-- The Euclidean loop ends at the gcd of PRIME and a, which is 1, with a cofactor that inverts a. -/
theorem invExtGcd_ok {a : Nat} (ha : a < PRIME) (h0 : a ≠ 0) :
    ∃ b, invExtGcd a = .ok b ∧ b < PRIME ∧ fmul a b = 1 := by
  have hgcd : Nat.gcd PRIME a = 1 := Nat.coprime_of_lt_prime h0 ha prime_PRIME
  obtain ⟨hfst, hsnd⟩ := euclidLoop_spec PRIME a (a + 1) PRIME a 0 1 (Nat.lt_succ_self a)
    (by simp [Int.ModEq]) (by simp [Int.ModEq])
  rw [hfst, hgcd] at hsnd
  have hpos : (0 : Int) < PRIME := Int.natCast_pos.2 PRIME_pos
  refine ⟨_, by rw [invExtGcd, if_pos (hfst.trans hgcd)], ?_, fmul_eq_one_of_cast ?_⟩
  · have := Int.emod_lt_of_pos (euclidLoop (a + 1) PRIME a 0 1).2 hpos
    omega
  · have hcast := (ZMod.intCast_eq_intCast_iff _ _ PRIME).2 hsnd
    rw [toNat_emod_cast, mul_comm]
    simpa using hcast

/-- Fermat's little theorem: a times a^(PRIME - 2) is 1 mod PRIME. -/
theorem invFermat_ok {a : Nat} (ha : a < PRIME) (h0 : a ≠ 0) :
    ∃ b, invFermat a = .ok b ∧ b < PRIME ∧ fmul a b = 1 := by
  have := Fact.mk prime_PRIME
  have hne : (a : ZMod PRIME) ≠ 0 := fun hz => h0 (eq_of_cast ha PRIME_pos (by rw [hz, Nat.cast_zero]))
  have hexp : PRIME - 2 + 1 = PRIME - 1 := by have := one_lt_PRIME; omega
  have hlt : PRIME - 2 < 2 ^ 256 := (Nat.sub_le _ _).trans_lt PRIME_lt_two_pow
  have hinv : fmul a (powMod 256 a (PRIME - 2)) = 1 := by
    apply fmul_eq_one_of_cast
    rw [powMod_cast 256 a _ hlt, ← pow_succ', hexp, ZMod.pow_card_sub_one_eq_one hne]
  exact ⟨_, by simp only [invFermat, hinv, if_true], powMod_lt _ _ _, hinv⟩

theorem finv_ok (alg : InvAlgo) {a : Nat} (ha : a < PRIME) (h0 : a ≠ 0) :
    ∃ b, finv alg a = .ok b ∧ b < PRIME ∧ fmul a b = 1 := by
  cases alg with
  | extGcd => simpa only [finv] using invExtGcd_ok ha h0
  | fermat => simpa only [finv] using invFermat_ok ha h0

/-- Whatever the algorithm, the engine answers the canonical inverse there is. -/
theorem finv_eq_ok_of_fmul (alg : InvAlgo) {a b : Nat} (ha : a < PRIME) (hb : b < PRIME) (h : fmul a b = 1) :
    finv alg a = .ok b := by
  obtain ⟨c, hok, hc, hac⟩ := finv_ok alg ha (ne_zero_of_fmul_eq_one (fmul_comm b a ▸ h))
  rw [hok, inverse_unique hb hc h hac]

/-- A quotient is the product with the divisor's inverse (40_field_arithmetic.md R155, R162). -/
theorem fdiv_ok (alg : InvAlgo) (a : Nat) {b : Nat} (hb : b < PRIME) (h0 : b ≠ 0) :
    ∃ c, fmul b c = 1 ∧ fdiv alg a b = .ok (fmul a c) := by
  obtain ⟨c, hok, -, hc⟩ := finv_ok alg hb h0
  exact ⟨c, hc, by rw [fdiv, if_neg h0, hok]⟩

/-- Settles O15: the engines answer the inverse there is, and there is one. -/
theorem inverseEnginesAgree : Obligations.InverseEnginesAgree := by
  intro a h1 ha
  obtain ⟨b, hok, hb, hab⟩ := finv_ok .extGcd ha (by omega)
  have hb0 := ne_zero_of_fmul_eq_one hab
  exact ⟨b, ⟨by omega, hb, hab⟩, hok, finv_eq_ok_of_fmul .fermat ha hb hab,
    fun c _ hc hac => inverse_unique hc hb hac hab⟩

/-- The engine undoes itself (40_field_arithmetic.md R157). -/
theorem finv_involutive (alg : InvAlgo) {a : Nat} (ha : a < PRIME) (h0 : a ≠ 0) :
    ∃ d, finv alg a = .ok d ∧ fmul a d = 1 ∧ finv alg d = .ok a := by
  obtain ⟨d, hok, hd, had⟩ := finv_ok alg ha h0
  exact ⟨d, hok, had, finv_eq_ok_of_fmul alg hd ha (by rw [fmul_comm, had])⟩

theorem fdiv_cancel (alg : InvAlgo) {a b : Nat} (ha : a < PRIME) (hb : b < PRIME) (h0 : b ≠ 0) :
    ∃ q, fdiv alg a b = .ok q ∧ fmul q b = a := by
  obtain ⟨c, hc, hok⟩ := fdiv_ok alg a hb h0
  exact ⟨_, hok, fmul_inverse_cancel ha hc⟩

theorem zero_fdiv (alg : InvAlgo) {b : Nat} (hb : b < PRIME) (h0 : b ≠ 0) : fdiv alg 0 b = .ok 0 := by
  obtain ⟨c, -, hok⟩ := fdiv_ok alg 0 hb h0
  rw [hok, fmul_comm, fmul_zero]

/-- Settles O16, law by law. -/
theorem fieldLaws : Obligations.FieldLaws := by
  intro alg a b c ha hb hc
  exact ⟨⟨fadd_comm a b, fmul_comm a b⟩, ⟨fadd_assoc ha hb hc, fmul_assoc a b c⟩, fmul_fadd a hb hc,
    ⟨fadd_zero ha, fmul_one ha, fmul_zero a⟩, ⟨fsub_eq_fadd_fsub_zero ha hb, fsub_self ha⟩, fadd_fsub_cancel ha hb,
    finv_involutive alg ha, fdiv_cancel alg ha hb, zero_fdiv alg hb⟩

/-! ### The results of the commands -/

/-- A one-source command whose source is canonical and whose primitive answers v. -/
theorem unaryOp_eq_completed {op : Nat → Except CmdError Nat} {ra : RegIdx} {s : State} {v : Nat} (rd : RegIdx)
    (ha : (readField ra s).toNat < PRIME) (hop : op (readField ra s).toNat = .ok v) :
    unaryOp op rd ra s = .next (completed (s.f.set rd.val (BitVec.ofNat 256 v)) s.sx s.sy s.ndraws s) := by
  rw [unaryOp, fieldOperand_ok.2 ⟨ha, rfl⟩]
  simp only [hop]
  rfl

/-- A two-source command whose sources are canonical and whose primitive answers v. -/
theorem binaryOp_eq_completed {op : Nat → Nat → Except CmdError Nat} {ra rb : RegIdx} {s : State} {v : Nat}
    (rd : RegIdx) (ha : (readField ra s).toNat < PRIME) (hb : (readField rb s).toNat < PRIME)
    (hop : op (readField ra s).toNat (readField rb s).toNat = .ok v) :
    binaryOp op rd ra rb s = .next (completed (s.f.set rd.val (BitVec.ofNat 256 v)) s.sx s.sy s.ndraws s) := by
  rw [binaryOp, fieldOperand_ok.2 ⟨ha, rfl⟩, fieldOperand_ok.2 ⟨hb, rfl⟩]
  simp only [hop]
  rfl

/-- Settles O8: the adder's conditional subtraction is the reduction. -/
theorem addResult : Obligations.AddResult := by
  rintro s rd ra rb a b rfl rfl ha hb
  rw [← fadd_eq_mod ha hb]
  exact binaryOp_eq_completed (op := fun a b => .ok (fadd a b)) rd ha hb rfl

/-- Settles O9: the subtractor's answer, by its two branches and by adding b back. -/
theorem subResult : Obligations.SubResult := by
  rintro s rd ra rb a b rfl rfl ha hb
  have hlt := fsub_lt ha hb
  refine ⟨_, hlt, ?_, fun h => if_neg (Nat.not_lt.2 h), fun h => if_pos h,
    binaryOp_eq_completed (op := fun a b => .ok (fsub a b)) rd ha hb rfl⟩
  rw [← fadd_eq_mod hlt hb, fadd_fsub_cancel ha hb]

/-- Settles O10: the multiplier reduces the exact product. -/
theorem mulResult : Obligations.MulResult := by
  rintro s rd ra rb a b rfl rfl ha hb
  exact binaryOp_eq_completed (op := fun a b => .ok (fmul a b)) rd ha hb rfl

/-- Settles O11: past the zero test, INV answers what the engine does. -/
theorem invResult : Obligations.InvResult := by
  rintro s rd ra a rfl ha h0
  obtain ⟨b, hok, hb, hab⟩ := finv_ok s.params.invAlgo ha h0
  have hb0 := ne_zero_of_fmul_eq_one hab
  have hchecked : finvChecked s.params.invAlgo (readField ra s).toNat = .ok b := by rw [finvChecked, if_neg h0, hok]
  exact ⟨b, by omega, hb, hab, unaryOp_eq_completed rd ha hchecked⟩

/-- Settles O12: the quotient times the divisor is the dividend. -/
theorem divResult : Obligations.DivResult := by
  rintro s rd ra rb a b rfl rfl ha hb h0
  obtain ⟨c, hc, hok⟩ := fdiv_ok s.params.invAlgo (readField ra s).toNat hb h0
  exact ⟨_, fmul_lt _ _, fmul_inverse_cancel ha hc, binaryOp_eq_completed rd ha hb hok⟩

/-! ### INTERNAL_FAULT is unreachable -/

theorem finvChecked_ne_internalFault (alg : InvAlgo) {a : Nat} (ha : a < PRIME) :
    finvChecked alg a ≠ .error .internalFault := by
  unfold finvChecked
  split
  · simp
  · rename_i h0
    obtain ⟨b, hok, -⟩ := finv_ok alg ha h0
    simp [hok]

theorem fdiv_ne_internalFault (alg : InvAlgo) (a : Nat) {b : Nat} (hb : b < PRIME) :
    fdiv alg a b ≠ .error .internalFault := by
  by_cases h0 : b = 0
  · simp [fdiv, h0]
  · obtain ⟨c, -, hok⟩ := fdiv_ok alg a hb h0
    simp [hok]

/-- The only divisions of the inner loop are by differences of canonical x-coordinates. -/
theorem basisLoop_ne_internalFault (alg : InvAlgo) {xs : Nat → Nat} {j : Nat} (hj : xs j < PRIME) :
    ∀ (is : List Nat) (l : Nat), (∀ i ∈ is, xs i < PRIME) → basisLoop alg xs j is l ≠ .error .internalFault := by
  intro is
  induction is with
  | nil => intro l _; simp [basisLoop]
  | cons i is ih =>
    intro l hxs
    obtain ⟨hi, his⟩ := List.forall_mem_cons.1 hxs
    unfold basisLoop
    split
    · exact ih l his
    split
    · rename_i e he
      have hne := fdiv_ne_internalFault alg (fsub 0 (xs i)) (fsub_lt hj hi)
      rwa [he] at hne
    · exact ih _ his

theorem lagrangeLoop_ne_internalFault (alg : InvAlgo) {xs : Nat → Nat} (ys : Nat → Nat) {k : Nat}
    (hxs : ∀ j < k, xs j < PRIME) : ∀ (js : List Nat) (acc : Nat), (∀ j ∈ js, j < k) →
      lagrangeLoop alg xs ys k js acc ≠ .error .internalFault := by
  intro js
  induction js with
  | nil => intro acc _; simp [lagrangeLoop]
  | cons j js ih =>
    intro acc hlt
    obtain ⟨hj, hjs⟩ := List.forall_mem_cons.1 hlt
    unfold lagrangeLoop
    split
    · rename_i e he
      have hne := basisLoop_ne_internalFault alg (hxs j hj) (List.range k) 1
        fun i hi => hxs i (List.mem_range.1 hi)
      rwa [he] at hne
    · exact ih _ hjs

theorem lagrange0_ne_internalFault (alg : InvAlgo) {xs : Nat → Nat} (ys : Nat → Nat) {k : Nat}
    (hxs : ∀ j < k, xs j < PRIME) : lagrange0 alg xs ys k ≠ .error .internalFault :=
  lagrangeLoop_ne_internalFault alg ys hxs _ 0 fun _ => List.mem_range.1

/-- PolyEval at 0 adds only zeros to the constant term (42_share_generation.md R210, R214). -/
theorem polyLoop_zero_fst {a : Nat → Nat} (h0 : a 0 < PRIME) : ∀ i, (polyLoop a 0 i).1 = a 0
  | 0     => rfl
  | i + 1 => by simp only [polyLoop, fmul_zero, polyLoop_zero_fst h0 i, fadd_zero h0]

theorem polyEval_zero {a : Nat → Nat} (h0 : a 0 < PRIME) (t : Nat) : polyEval a t 0 = a 0 :=
  polyLoop_zero_fst h0 (t - 1)

/-- The P(0) check of GENERATE passes: the batch is loaded beside A[0], which holds the secret. -/
theorem polyEval_loadCoeffs_zero {s : State} {t n : Nat} {secret : Word256} (hi : MachineInv s)
    (hs : s.stage = .coeffs t n secret) (b : Vector Byte 32) :
    polyEval (polynomial (loadCoeffs t (storeSample b s)).coeffA) t 0 = secret.toNat := by
  obtain ⟨hg, -⟩ := generating_of_coeffs hi.progress hs
  have ht := hg.tLow
  have hconst : polynomial (loadCoeffs t (storeSample b s)).coeffA 0 = secret.toNat := by
    have hload : (loadCoeffs t (storeSample b s)).coeffA = loaded t (stored b s) s := rfl
    rw [polynomial, hload, loaded, memory_read_fill _ _ _ (wf_of_storeOk hi.stores.coeffA), if_pos (by omega),
      if_pos rfl, hg.constantTerm]
  rw [polyEval_zero (hconst ▸ (canon_iff _).1 hg.canon), hconst]

/-- The outcome is a next state: no fault, no refusal. -/
def AnswersNext (o : Host.Outcome State Fault Refusal) : Prop := ∃ t, o = .next t

theorem answersNext_next (t : State) : AnswersNext (.next t) := ⟨t, rfl⟩

theorem answersNext_takeError {e : CmdError} (s : State) (he : e ≠ .internalFault) : AnswersNext (takeError e s) :=
  ⟨_, takeError_of_ne s he⟩

theorem answersNext_unaryOp {op : Nat → Except CmdError Nat} (rd ra : RegIdx) (s : State)
    (hop : ∀ a < PRIME, op a ≠ .error .internalFault) : AnswersNext (unaryOp op rd ra s) := by
  obtain ⟨-, h⟩ | ⟨ha, ⟨e, he, h⟩ | ⟨v, -, h⟩⟩ := unaryOp_cases op rd ra s <;> rw [h]
  · exact answersNext_takeError s (by decide)
  · exact answersNext_takeError s fun hc => hop _ ha (hc ▸ he)
  · exact answersNext_next _

theorem answersNext_binaryOp {op : Nat → Nat → Except CmdError Nat} (rd ra rb : RegIdx) (s : State)
    (hop : ∀ a b, b < PRIME → op a b ≠ .error .internalFault) : AnswersNext (binaryOp op rd ra rb s) := by
  obtain ⟨-, h⟩ | ⟨-, hb, ⟨e, he, h⟩ | ⟨v, -, h⟩⟩ := binaryOp_cases op rd ra rb s <;> rw [h]
  · exact answersNext_takeError s (by decide)
  · exact answersNext_takeError s fun hc => hop _ _ hb (hc ▸ he)
  · exact answersNext_next _

theorem answersNext_execRand (rd : RegIdx) (s : State) : AnswersNext (execRand rd s) := by
  unfold execRand
  split
  · split
    · exact answersNext_next _
    · exact answersNext_takeError s (by decide)
    · exact answersNext_next _
  all_goals exact answersNext_next _

theorem answersNext_execRandnz (rd : RegIdx) (s : State) : AnswersNext (execRandnz rd s) := by
  unfold execRandnz
  split
  · split
    · exact answersNext_next _
    · exact answersNext_takeError s (by decide)
    · exact answersNext_next _
    · exact answersNext_next _
  all_goals exact answersNext_next _

theorem answersNext_generateStart (ra : RegIdx) (s : State) : AnswersNext (generateStart ra s) := by
  unfold generateStart
  split
  · exact answersNext_takeError s (by decide)
  split
  · exact answersNext_takeError s (by decide)
  split
  · rename_i e he
    obtain ⟨-, rfl⟩ := fieldOperand_error.1 he
    exact answersNext_takeError s (by decide)
  · exact answersNext_next _

theorem answersNext_generateCoeffs {s : State} {t n : Nat} {secret : Word256} (hi : MachineInv s)
    (hs : s.stage = .coeffs t n secret) : AnswersNext (generateCoeffs t n secret s) := by
  unfold generateCoeffs
  obtain ⟨-, h⟩ | ⟨-, h⟩ | ⟨b, -, ⟨-, h⟩ | ⟨-, -, h⟩ | ⟨-, -, h⟩⟩ := batchStep_cases (t - 1) s <;> rw [h]
  · exact answersNext_next _
  · exact answersNext_takeError _ (by decide)
  · exact answersNext_next _
  · exact ⟨_, if_pos (polyEval_loadCoeffs_zero hi hs b)⟩
  · exact answersNext_next _

theorem answersNext_generateXs (t n : Nat) (s : State) : AnswersNext (generateXs t n s) := by
  unfold generateXs
  split
  · exact answersNext_next _
  · exact answersNext_takeError _ (by decide)
  · exact answersNext_next _
  · exact answersNext_next _

theorem answersNext_execGenerate (ra : RegIdx) {s : State} (hi : MachineInv s) : AnswersNext (execGenerate ra s) := by
  unfold execGenerate
  split
  · rename_i hs
    exact answersNext_generateCoeffs hi hs
  · exact answersNext_generateXs _ _ s
  all_goals exact answersNext_generateStart ra s

theorem answersNext_execReconstruct (rd : RegIdx) (s : State) : AnswersNext (execReconstruct rd s) := by
  unfold execReconstruct
  split
  · exact answersNext_takeError s (by decide)
  split
  · exact answersNext_takeError s (by decide)
  · rename_i hwindow
    have hcanon := (windowCanon_iff s _ _).1 (Bool.not_eq_false _ ▸ hwindow)
    split
    · rename_i e he
      have hne := lagrange0_ne_internalFault s.params.invAlgo (fun j => shareY s (s.recBase.toNat + j))
        fun j hj => (hcanon j hj).1
      exact answersNext_takeError s fun hc => hne (hc ▸ he)
    · exact answersNext_next _

/-- Only GENERATE's P(0) check needs the invariant. -/
theorem answersNext_exec (i : Instr) {s : State} (hi : MachineInv s) : AnswersNext (exec i s) := by
  cases i with
  | nop => exact answersNext_next _
  | add rd ra rb => exact answersNext_binaryOp (op := fun a b => .ok (fadd a b)) rd ra rb s nofun
  | sub rd ra rb => exact answersNext_binaryOp (op := fun a b => .ok (fsub a b)) rd ra rb s nofun
  | mul rd ra rb => exact answersNext_binaryOp (op := fun a b => .ok (fmul a b)) rd ra rb s nofun
  | inv rd ra => exact answersNext_unaryOp rd ra s fun _ => finvChecked_ne_internalFault _
  | div rd ra rb => exact answersNext_binaryOp rd ra rb s fun a _ => fdiv_ne_internalFault _ a
  | rand rd => exact answersNext_execRand rd s
  | randnz rd => exact answersNext_execRandnz rd s
  | generate ra => exact answersNext_execGenerate ra hi
  | reconstruct rd => exact answersNext_execReconstruct rd s

theorem answersNext_coreTurn {s : State} (hi : MachineInv s) : AnswersNext (coreTurn s) := by
  unfold coreTurn
  split
  · exact answersNext_next _
  · split
    · exact answersNext_exec _ hi
    · exact answersNext_takeError s (by decide)

/-- Settles O44: host accesses and answers always give a next state, the core's turn does under the invariant. -/
theorem stepNeverFaults : Obligations.StepNeverFaults := by
  intro s hi
  rw [step_eq]
  cases upcoming s with
  | host a => exact answersNext_next _
  | core => exact answersNext_coreTurn (machineInv_advance hi)
  | entropy d r => exact answersNext_next _

end Sys2Proof.Proofs
end

section
/-! PROOFS, 41_sampling.md. The sample of an answer as a sum over its bytes; what a batch step does with an answer, and
the command with the step's outcome; then RAND, RANDNZ and the batches, and the way of an answer to the draw it is to. -/

namespace Sys2Proof.Proofs

open Sys2Proof.Machine Sys2Proof.Laws

/-! ### The sample of an answer (R192, R193) -/

/-- Horner's rule with the most significant byte first: a byte more moves each of the others one place up. -/
theorem foldl_bytes_eq_sum : ∀ (n : Nat) (f : Fin n → Byte),
    (List.ofFn f).foldl (fun acc x => acc * 256 + x.toNat) 0 = ∑ i, (f i).toNat * 256 ^ (n - 1 - i.val)
  | 0, _ => rfl
  | n + 1, f => by
    have hplace (i : Fin n) : 256 ^ (n + 1 - 1 - i.castSucc.val) = 256 ^ (n - 1 - i.val) * 256 := by
      rw [← pow_succ, Fin.val_castSucc, show n + 1 - 1 - i.val = n - 1 - i.val + 1 by omega]
    rw [List.ofFn_succ', List.concat_eq_append, List.foldl_concat, foldl_bytes_eq_sum n, Fin.sum_univ_castSucc,
      Finset.sum_mul]
    congr 1
    · exact Finset.sum_congr rfl fun i _ => by rw [hplace, mul_assoc]
    · simp

theorem toList_eq_ofFn {n : Nat} (b : Vector Byte n) : b.toList = List.ofFn fun i : Fin n => b[i] :=
  List.ext_getElem (by simp) (by simp)

theorem sample_eq_sum (b : Vector Byte 32) :
    sample b = (∑ i : Fin 32, (b[i]).toNat * 256 ^ (31 - i.val)) % PRIME := by
  rw [sample, be256, toList_eq_ofFn, foldl_bytes_eq_sum]

theorem ofNat_ne_zero_of_lt_PRIME {v : Nat} (h : v < PRIME) (h0 : v ≠ 0) : BitVec.ofNat 256 v ≠ 0 := fun hv =>
  h0 (by rw [← toNat_ofNat_of_lt h, hv]; rfl)

/-! ### What a batch step does with an answer (R194) -/

section
variable {k : Nat} {b : Vector Byte 32} {s : State}

/-- Issuing the next draw of a batch, in the words of Sys2Proof/Safety.lean. -/
theorem requestDraw_storeSample (j : Nat) :
    requestDraw (setIndex j (storeSample b s)) = drawing s.stage j (s.ndraws + 1) s.coeffA (stored b s) s := rfl

theorem batchStep_waiting (hr : s.reply = none) : batchStep k s = .waiting := by simp only [batchStep, hr]

/-- Before the last index the value drawn is not looked at. -/
theorem batchStep_continues (hr : s.reply = some (.ok b)) (h : s.loopIdx + 1 < k) :
    batchStep k s = .more (drawing s.stage (s.loopIdx + 1) (s.ndraws + 1) s.coeffA (stored b s) s) := by
  simp only [batchStep, hr, if_pos h, requestDraw_storeSample]

/-- At the last index a zero element anywhere in the batch sends it back to index 0. -/
theorem batchStep_redraws (hr : s.reply = some (.ok b)) (h : k ≤ s.loopIdx + 1)
    (hzero : ∃ j < k, Memory.read (stored b s) j = 0) :
    batchStep k s = .more (drawing s.stage 0 (s.ndraws + 1) s.coeffA (stored b s) s) := by
  have hz : ¬ batchNonzero (storeSample b s).batchBuf k = true := fun hn => by
    obtain ⟨j, hj, h0⟩ := hzero
    exact (batchNonzero_iff _ _).1 hn j hj h0
  simp only [batchStep, hr, if_neg (Nat.not_lt.2 h), if_neg hz, requestDraw_storeSample]

theorem batchStep_accepts (hr : s.reply = some (.ok b)) (h : k ≤ s.loopIdx + 1)
    (hn : ∀ j < k, Memory.read (stored b s) j ≠ 0) : batchStep k s = .accepted (storeSample b s) := by
  have hz : batchNonzero (storeSample b s).batchBuf k = true := (batchNonzero_iff _ _).2 hn
  simp only [batchStep, hr, if_neg (Nat.not_lt.2 h), if_pos hz]

end

/-! ### What a command does with its batch step -/

/-- What a command answers on the two outcomes that all three batches treat alike. -/
theorem exec_of_batchStep {i : Instr} {k : Nat} {s : State} (hb : RunsBatch i s.stage k) :
    (batchStep k s = .waiting → exec i s = .next s) ∧ (∀ u, batchStep k s = .more u → exec i s = .next u) := by
  generalize hs : s.stage = st at hb
  cases hb with
  | randnz rd =>
    exact ⟨fun h => by simp only [exec, execRandnz, hs, h], fun u h => by simp only [exec, execRandnz, hs, h]⟩
  | coeffs ra t n secret =>
    exact ⟨fun h => by simp only [exec, execGenerate, generateCoeffs, hs, h],
      fun u h => by simp only [exec, execGenerate, generateCoeffs, hs, h]⟩
  | xs ra t n secret =>
    exact ⟨fun h => by simp only [exec, execGenerate, generateXs, hs, h],
      fun u h => by simp only [exec, execGenerate, generateXs, hs, h]⟩

/-- While a draw has no answer, its command leaves the state as it is. -/
theorem exec_of_unanswered {i : Instr} {s : State} (hd : Draws i s.stage) (hr : s.reply = none) :
    exec i s = .next s := by
  generalize hs : s.stage = st at hd
  cases hd with
  | rand rd => simp only [exec, execRand, hs, hr]
  | batch hb => exact (exec_of_batchStep (hs ▸ hb)).1 (batchStep_waiting hr)

/-! ### RAND, RANDNZ and the batches -/

/-- The first draw of RAND or of a batch, in the words of Sys2Proof/Safety.lean. -/
theorem startDraw_eq (st : Stage) (s : State) :
    startDraw st s = drawing st 0 s.ndraws s.coeffA s.batchBuf s := rfl

/-- Settles O17: the start of RAND and RANDNZ is startDraw; a command whose draw is unanswered waits. -/
theorem drawIssuedAndAwaited : Obligations.DrawIssuedAndAwaited := by
  refine ⟨fun s rd hs => ?_, fun s i => exec_of_unanswered⟩
  exact ⟨by simp only [exec, execRand, hs, startDraw_eq], by simp only [exec, execRandnz, hs, startDraw_eq]⟩

/-- Settles O18: the sample of the answer is the sum modulo PRIME. -/
theorem randCompletes : Obligations.RandCompletes := by
  intro s rd b hs hr
  rw [← sample_eq_sum]
  simp only [exec, execRand, hs, hr]
  rfl

/-- Settles O19: the batch of one is accepted, and its element is the sample just stored. -/
theorem randnzCompletes : Obligations.RandnzCompletes := by
  intro s rd b v hs hidx hwf hr hv hv0
  obtain rfl : v = sample b := hv.trans (sample_eq_sum b).symm
  have hread : Memory.read (stored b s) 0 = BitVec.ofNat 256 (sample b) := by
    rw [stored, hidx, memory_read_write_same _ _ hwf]
  have hnonzero : ∀ j < 1, Memory.read (stored b s) j ≠ 0 := fun j hj => by
    obtain rfl : j = 0 := by omega
    rw [hread]
    exact ofNat_ne_zero_of_lt_PRIME (sample_lt b) hv0
  have hstep : batchStep 1 s = .accepted (storeSample b s) := batchStep_accepts hr (Nat.le_add_left 1 _) hnonzero
  rw [← hread]
  simp only [exec, execRandnz, hs, hstep]
  rfl

/-- Settles O20: a batch tests its index first, and for a zero element only at the last one. -/
theorem batchContinuesOrRedraws : Obligations.BatchContinuesOrRedraws := by
  rintro s i k b m hb hr rfl
  constructor
  · exact fun hlt => (exec_of_batchStep hb).2 _ (batchStep_continues hr hlt)
  · exact fun hlast hzero => (exec_of_batchStep hb).2 _ (batchStep_redraws hr hlast.ge hzero)

/-! ### The way of an answer (R191) -/

theorem answerDraw_taken {s : State} {d : Option Nat} (r : Reply) (hp : s.ereq = .pending)
    (hd : d = none ∨ d = some s.drawId) : answerDraw d r s = deliver r s :=
  if_pos ⟨hp, (answersNewest_iff d s).2 hd⟩

theorem answerDraw_discarded {s : State} {d : Option Nat} (r : Reply)
    (h : s.ereq = .none ∨ (d ≠ none ∧ d ≠ some s.drawId)) : answerDraw d r s = s := by
  refine if_neg ?_
  rw [answersNewest_iff]
  rintro ⟨hp, hd⟩
  obtain hidle | ⟨hnone, hother⟩ := h
  · exact absurd (hp.symm.trans hidle) nofun
  · exact hd.elim hnone hother

/-- A core step issues one draw under the next number, or leaves the number and the request. -/
theorem ran_request {i : Instr} {s t : State} (h : Ran i s t) :
    (t.drawId = s.drawId ∧ t.ereq = s.ereq) ∨ (t.drawId = s.drawId + 1 ∧ t.ereq = .pending) := by
  cases h with
  | started | checked | again | coeffsDone => exact .inr ⟨rfl, rfl⟩
  | waiting | aborted | wiped | nothing | computed | sampled | shared => exact .inl ⟨rfl, rfl⟩

/-- Settles O47: an entropy turn is answerDraw on the advanced state, and a core step is one of the forms of Ran. -/
theorem entropyAnswers : Obligations.EntropyAnswers := by
  intro s d r hu
  have hstep : step s = .next (answerDraw d r (advance s)) := step_turn hu
  rw [hstep]
  refine ⟨fun hp hd => ?_, fun h => ?_, rfl, rfl, fun i t ht => ran_request (exec_cases ht)⟩
  · rw [answerDraw_taken r ((advance_ereq s).trans hp) (by rwa [advance_drawId])]
    rfl
  · rw [answerDraw_discarded r (by rwa [advance_ereq, advance_drawId])]

end Sys2Proof.Proofs
end

section
/-! PROOFS, 42_share_generation.md. PolyEval as a sum; what GENERATE answers at its start and at the end of each of its
two batches; what it leaves when it is aborted. -/

namespace Sys2Proof.Proofs

open Sys2Proof.Machine Sys2Proof.Laws

/-! ### The polynomial evaluator (R210) -/

/-- After turn i the accumulator holds the first i + 1 terms, the running power x^i. -/
theorem polyLoop_cast {a : Nat → Nat} (h0 : a 0 < PRIME) (x : Nat) : ∀ i,
    ((polyLoop a x i).1 : ZMod PRIME) = ∑ j ∈ Finset.range (i + 1), (a j : ZMod PRIME) * (x : ZMod PRIME) ^ j ∧
    ((polyLoop a x i).2 : ZMod PRIME) = (x : ZMod PRIME) ^ i
  | 0     => by simp [polyLoop]
  | i + 1 => by
    obtain ⟨hacc, hpow⟩ := polyLoop_cast h0 x i
    have hpow' : ((fmul (polyLoop a x i).2 x : Nat) : ZMod PRIME) = (x : ZMod PRIME) ^ (i + 1) := by
      rw [fmul_cast, hpow, pow_succ]
    refine ⟨?_, hpow'⟩
    rw [polyLoop, fadd_cast (polyLoop_fst_lt_PRIME h0 x i) (fmul_lt _ _), fmul_cast, hacc, hpow',
      ← Finset.sum_range_succ]

/-- Only the constant term must be canonical: the other coefficients go through the multiplier. -/
theorem polyEval_eq_sum {a : Nat → Nat} (h0 : a 0 < PRIME) {t : Nat} (ht : 1 ≤ t) (x : Nat) :
    polyEval a t x = (∑ i ∈ Finset.range t, a i * x ^ i) % PRIME := by
  apply eq_of_cast (polyEval_lt_PRIME h0 t x) (Nat.mod_lt _ PRIME_pos)
  obtain ⟨hacc, -⟩ := polyLoop_cast h0 x (t - 1)
  rw [polyEval, hacc, Nat.sub_add_cancel ht, ZMod.natCast_mod]
  push_cast
  rfl

/-- The same with the constant term apart. -/
theorem polyEval_eq_constant_add_sum {a : Nat → Nat} (h0 : a 0 < PRIME) {t : Nat} (ht : 1 ≤ t) (x : Nat) :
    polyEval a t x = (a 0 + ∑ i ∈ Finset.Ico 1 t, a i * x ^ i) % PRIME := by
  rw [polyEval_eq_sum h0 ht, Finset.range_eq_Ico, Finset.sum_eq_sum_Ico_succ_bot ht, pow_zero, mul_one]

/-- Settles O22: the value is the sum's residue, and at 0 every later term is 0. -/
theorem polyEvalIsThePolynomial : Obligations.PolyEvalIsThePolynomial := by
  intro a t x ht ha _
  have h0 : a 0 < PRIME := ha 0 ht
  exact ⟨polyEval_eq_sum h0 ht x, polyEval_lt_PRIME h0 t x, polyEval_zero h0 t⟩

/-! ### The start of GENERATE: one answer for each check, in the order of 60_exceptions.md R278 -/

section
variable {s : State} {ra : RegIdx}

theorem exec_generate_start (hs : s.stage = .start) : exec (.generate ra) s = generateStart ra s := by
  simp only [exec, execGenerate, hs]

theorem generateStart_invalidArgument (h : s.genT.toNat ≤ 1 ∨ s.genN.toNat < s.genT.toNat) :
    generateStart ra s = .next (aborted .invalidArgument s.sx s.sy s.ndraws s) := by
  rw [generateStart, if_pos h, takeError_eq s (by decide)]

theorem generateStart_capacity (ht : 1 < s.genT.toNat) (htn : s.genT.toNat ≤ s.genN.toNat)
    (hn : s.params.maxShares < s.genN.toNat) :
    generateStart ra s = .next (aborted .capacity s.sx s.sy s.ndraws s) := by
  rw [generateStart, if_neg (by omega), if_pos hn, takeError_eq s (by decide)]

theorem generateStart_malformedInput (ht : 1 < s.genT.toNat) (htn : s.genT.toNat ≤ s.genN.toNat)
    (hn : s.genN.toNat ≤ s.params.maxShares) (hsec : PRIME ≤ (readField ra s).toNat) :
    generateStart ra s = .next (aborted .malformedInput s.sx s.sy s.ndraws s) := by
  rw [generateStart, if_neg (by omega), if_neg (by omega), fieldOperand_error.2 ⟨hsec, rfl⟩]
  exact takeError_eq s (by decide)

theorem generateStart_drawing (ht : 1 < s.genT.toNat) (htn : s.genT.toNat ≤ s.genN.toNat)
    (hn : s.genN.toNat ≤ s.params.maxShares) (hsec : (readField ra s).toNat < PRIME) :
    generateStart ra s = .next (drawing (.coeffs s.genT.toNat s.genN.toNat (readField ra s)) 0 s.ndraws
      (Memory.write s.coeffA 0 (readField ra s)) s.batchBuf s) := by
  rw [generateStart, if_neg (by omega), if_neg (by omega), fieldOperand_ok.2 ⟨hsec, rfl⟩]
  rfl

end

/-- Settles O23: one equation of generateStart for each clause, no draw having been made. -/
theorem generateChecksBeforeDrawing : Obligations.GenerateChecksBeforeDrawing := by
  rintro s ra t n hs hdraws rfl rfl
  rw [exec_generate_start hs]
  refine ⟨fun h => ?_, fun ht htn hn => ?_, fun ht htn hn hsec => ?_, fun ht htn hn hsec => ?_⟩
  · rw [generateStart_invalidArgument h, hdraws]
  · rw [generateStart_capacity ht htn hn, hdraws]
  · rw [generateStart_malformedInput ht htn hn hsec, hdraws]
  · rw [generateStart_drawing ht htn hn hsec, hdraws]

/-! ### The coefficients -/

/-- What the loaded store holds below t: the constant term, then the batch in draw order (R211). -/
theorem read_loaded {s : State} (hwf : Memory.wf s.coeffA = true) (m : Memory) {t i : Nat} (hi : i < t) :
    Memory.read (loaded t m s) i = if i = 0 then Memory.read s.coeffA 0 else Memory.read m (i - 1) := by
  rw [loaded, memory_read_fill _ _ _ hwf, if_pos hi]

/-- The coefficient batch accepted: the P(0) check passes (R214), and the first x is drawn. -/
theorem exec_generate_coeffs_accepted {s : State} {t n : Nat} {secret : Word256} {b : Vector Byte 32} (ra : RegIdx)
    (hi : MachineInv s) (hs : s.stage = .coeffs t n secret)
    (hstep : batchStep (t - 1) s = .accepted (storeSample b s)) :
    exec (.generate ra) s =
      .next (drawing (.xs t n secret) 0 (s.ndraws + 1) (loaded t (stored b s) s) (stored b s) s) := by
  simp only [exec, execGenerate, hs, generateCoeffs, hstep, if_pos (polyEval_loadCoeffs_zero hi hs b)]
  rfl

/-- Settles O24: the store is the loaded one. -/
theorem generateLoadsCoefficients : Obligations.GenerateLoadsCoefficients := by
  rintro s ra t n secret b m hi hs hr hlast rfl hn
  obtain ⟨hg, -⟩ := generating_of_coeffs hi.progress hs
  have ht := hg.tLow
  have hwf : Memory.wf s.coeffA = true := wf_of_storeOk hi.stores.coeffA
  refine ⟨loaded t (stored b s) s, memory_fill_wf _ _ hwf, ?_, fun i h1 hit => ?_,
    exec_generate_coeffs_accepted ra hi hs (batchStep_accepts hr hlast.ge hn)⟩
  · rw [read_loaded hwf _ (by omega), if_pos rfl, hg.constantTerm]
  · rw [read_loaded hwf _ hit, if_neg (by omega)]
    rfl

/-! ### The shares -/

/-- The x batch accepted: the shares are committed and GENERATE completes (R213). -/
theorem exec_generate_xs_accepted {s : State} {t n : Nat} {secret : Word256} {b : Vector Byte 32} (ra : RegIdx)
    (hs : s.stage = .xs t n secret) (hstep : batchStep n s = .accepted (storeSample b s)) :
    exec (.generate ra) s = .next (completed s.f (Memory.fill s.sx (fun j => Memory.read (stored b s) j) n)
      (Memory.fill s.sy (fun j =>
        BitVec.ofNat 256 (polyEval (polynomial s.coeffA) t (Memory.read (stored b s) j).toNat)) n)
      (s.ndraws + 1) s) := by
  simp only [exec, execGenerate, hs, generateXs, hstep]
  rfl

/-- The y-coordinate at x, its constant term the secret (R210, R213). -/
theorem toNat_share_y {s : State} {t n : Nat} {secret : Word256} (hi : MachineInv s) (hs : s.stage = .xs t n secret)
    (x : Nat) : (BitVec.ofNat 256 (polyEval (polynomial s.coeffA) t x)).toNat =
      (secret.toNat + ∑ i ∈ Finset.Ico 1 t, (Memory.read s.coeffA i).toNat * x ^ i) % PRIME := by
  obtain ⟨hg, -⟩ := generating_of_xs hi.progress hs
  have h0 := constantTerm_lt_PRIME hi hs
  rw [toNat_ofNat_of_lt (polyEval_lt_PRIME h0 t x), polyEval_eq_constant_add_sum h0 hg.tLow.le, ← hg.constantTerm]
  rfl

/-- Settles O25: both halves of the share memory are filled up to n. -/
theorem generateWritesShares : Obligations.GenerateWritesShares := by
  rintro s ra t n secret b m hi hs hr hlast rfl hn
  have hx : Memory.wf s.sx = true := wf_of_storeOk hi.stores.sx
  have hy : Memory.wf s.sy = true := wf_of_storeOk hi.stores.sy
  refine ⟨_, _, memory_fill_wf _ n hx, memory_fill_wf _ n hy, fun j hj => ?_, fun j hj => ?_,
    exec_generate_xs_accepted ra hs (batchStep_accepts hr hlast.ge hn)⟩
  · rw [memory_read_fill _ n j hx, memory_read_fill _ n j hy, if_pos hj, if_pos hj]
    exact ⟨rfl, hn j hj, read_stored_lt_PRIME hi b j, toNat_share_y hi hs _⟩
  · exact ⟨memory_read_fill_of_le hx _ hj, memory_read_fill_of_le hy _ hj⟩

/-! ### What an abort leaves (R218) -/

theorem zeroed_fill_zero {m : Memory} (hm : Memory.wf m = true) (n : Nat) :
    Zeroed n m (Memory.fill m (fun _ => 0) n) := fun j => memory_read_fill _ n j hm

theorem batchStep_failed {s : State} (k : Nat) (hr : s.reply = some .fail) : batchStep k s = .failed := by
  simp only [batchStep, hr]

/-- A failed draw of either batch zeroes the share entries below n. -/
theorem exec_generate_failed {s : State} {t n : Nat} {secret : Word256} (ra : RegIdx)
    (hs : s.stage = .coeffs t n secret ∨ s.stage = .xs t n secret) (hr : s.reply = some .fail) :
    exec (.generate ra) s = .next (aborted .randomnessUnavailable (Memory.fill s.sx (fun _ => 0) n)
      (Memory.fill s.sy (fun _ => 0) n) s.ndraws s) := by
  have habort : takeError .randomnessUnavailable (wipeShares n s) = .next (aborted .randomnessUnavailable
      (Memory.fill s.sx (fun _ => 0) n) (Memory.fill s.sy (fun _ => 0) n) s.ndraws s) :=
    takeError_eq _ (by decide)
  obtain hs | hs := hs
  · simp only [exec, execGenerate, hs, generateCoeffs, batchStep_failed (t - 1) hr, habort]
  · simp only [exec, execGenerate, hs, generateXs, batchStep_failed n hr, habort]

/-- The coefficient batch ends in a fault only by the P(0) check (R214), the share entries below n zeroed. -/
theorem generateCoeffs_fault {s : State} {t n : Nat} {secret : Word256} {f : Fault}
    (h : generateCoeffs t n secret s = .fault f) :
    ∃ b, f = .internalFault (abortState .internalFault (wipeShares n (loadCoeffs t (storeSample b s)))) := by
  unfold generateCoeffs at h
  obtain ⟨-, hb⟩ | ⟨-, hb⟩ | ⟨b, -, ⟨-, hb⟩ | ⟨-, -, hb⟩ | ⟨-, -, hb⟩⟩ := batchStep_cases (t - 1) s <;>
    simp only [hb] at h
  · cases h
  · rw [takeError_of_ne _ (by decide)] at h
    cases h
  · cases h
  · split at h
    · cases h
    · rw [takeError_internalFault] at h
      cases h
      exact ⟨b, rfl⟩
  · cases h

theorem generateXs_ne_fault (t n : Nat) (s : State) (f : Fault) : generateXs t n s ≠ .fault f := by
  obtain ⟨u, hu⟩ := answersNext_generateXs t n s
  rw [hu]
  nofun

/-- The state that an INTERNAL_FAULT of GENERATE carries, in either batch. -/
theorem exec_generate_fault {s : State} {ra : RegIdx} {t n : Nat} {secret : Word256} {left : State}
    (hs : s.stage = .coeffs t n secret ∨ s.stage = .xs t n secret)
    (h : exec (.generate ra) s = .fault (.internalFault left)) :
    ∃ b, left = abortState .internalFault (wipeShares n (loadCoeffs t (storeSample b s))) := by
  obtain hs | hs := hs <;> simp only [exec, execGenerate, hs] at h
  · obtain ⟨b, hb⟩ := generateCoeffs_fault h
    cases hb
    exact ⟨b, rfl⟩
  · exact absurd h (generateXs_ne_fault t n s _)

/-- A GENERATE aborted by one of its checks leaves the share memory and counts the draws made. -/
theorem generate_aborted_by_check {s u : State} {ra : RegIdx} {e : CmdError} (h : exec (.generate ra) s = .next u)
    (hnone : s.errcode = none) (hu : u.errcode = some e) (he : e ≠ .randomnessUnavailable) :
    u.sx = s.sx ∧ u.sy = s.sy ∧ u.entropyCount = s.entropyCount + BitVec.ofNat 32 s.ndraws := by
  have hkept : u.errcode ≠ s.errcode := by
    rw [hu, hnone]
    nofun
  cases exec_cases h with
  | waiting | started | checked | again | coeffsDone | nothing | computed | sampled | shared => exact absurd rfl hkept
  | aborted => exact ⟨rfl, rfl, rfl⟩
  | wiped =>
    cases hu
    exact absurd rfl he

/-- Settles O26: a check, a failed draw and a failed P(0) check each leave their own. -/
theorem generateAbortLeaves : Obligations.GenerateAbortLeaves := by
  intro s ra
  constructor
  · intro u e h hnone hu he
    exact generate_aborted_by_check h hnone hu (by obtain rfl | rfl | rfl := he <;> decide)
  · intro t n secret hs hx hy
    refine ⟨fun hr => ⟨_, _, zeroed_fill_zero hx n, zeroed_fill_zero hy n, exec_generate_failed ra hs hr⟩,
      fun left h => ?_⟩
    obtain ⟨b, rfl⟩ := exec_generate_fault hs h
    exact ⟨zeroed_fill_zero hx n, zeroed_fill_zero hy n, rfl, rfl⟩

end Sys2Proof.Proofs
end

section
/-! PROOFS, 43_reconstruction.md. First the two loops of Lagrange0 on canonical x-coordinates: a repeated x stops them
with DIVISION_BY_ZERO, and without one their answer is the Lagrange sum in ZMod PRIME, which is Mathlib's interpolation
polynomial at 0. Then RECONSTRUCT on a canonical window, and what that polynomial is at 0 for each obligation. -/

namespace Sys2Proof.Proofs

open Sys2Proof.Machine Sys2Proof.Laws Polynomial

/-! ### A repeated x-coordinate (43_reconstruction.md R233) -/

/-- The inner loop ends only after it has divided by every difference it meets. -/
theorem fsub_ne_zero_of_basisLoop {alg : InvAlgo} {xs : Nat → Nat} {j v : Nat} :
    ∀ {is : List Nat} {l : Nat}, basisLoop alg xs j is l = .ok v → ∀ i ∈ is, i ≠ j → fsub (xs j) (xs i) ≠ 0
  | [], _, _ => nofun
  | i :: is, l, h => by
    rw [basisLoop] at h
    rw [List.forall_mem_cons]
    split at h
    · rename_i hij
      exact ⟨fun hne => absurd hij hne, fsub_ne_zero_of_basisLoop h⟩
    split at h
    · cases h
    · rename_i q hq
      refine ⟨fun _ h0 => ?_, fsub_ne_zero_of_basisLoop h⟩
      rw [fdiv, if_pos h0] at hq
      cases hq

theorem basisLoop_ok_of_lagrangeLoop {alg : InvAlgo} {xs ys : Nat → Nat} {k v : Nat} :
    ∀ {js : List Nat} {acc : Nat}, lagrangeLoop alg xs ys k js acc = .ok v →
      ∀ j ∈ js, ∃ l, basisLoop alg xs j (List.range k) 1 = .ok l
  | [], _, _ => nofun
  | j :: js, acc, h => by
    rw [lagrangeLoop] at h
    split at h
    · cases h
    · rename_i l hl
      exact List.forall_mem_cons.2 ⟨⟨l, hl⟩, basisLoop_ok_of_lagrangeLoop h⟩

/-- Lagrange0 answers no value when two of the x-coordinates are equal, and the one error left is DIVISION_BY_ZERO. -/
theorem lagrange0_of_repeated (alg : InvAlgo) {xs : Nat → Nat} (ys : Nat → Nat) {k i j : Nat}
    (hxs : ∀ j < k, xs j < PRIME) (hi : i < k) (hj : j < k) (hij : i ≠ j) (heq : xs i = xs j) :
    lagrange0 alg xs ys k = .error .divisionByZero := by
  obtain ⟨v, hv, -⟩ | hv | hv := lagrange0_cases alg xs ys k
  · obtain ⟨l, hl⟩ := basisLoop_ok_of_lagrangeLoop hv j (List.mem_range.2 hj)
    have hsub := fsub_ne_zero_of_basisLoop hl i (List.mem_range.2 hi) hij
    exact absurd ((fsub_eq_zero_iff (hxs j hj) (hxs i hi)).2 heq.symm) hsub
  · exact absurd hv (lagrange0_ne_internalFault alg ys hxs)
  · exact hv

/-! ### The Lagrange sum (43_reconstruction.md R230, R234) -/

/-- The factor (0 - x_i) / (x_j - x_i) of the j-th basis value. -/
def basisFactor (xs : Nat → Nat) (j i : Nat) : ZMod PRIME := (0 - (xs i : ZMod PRIME)) * ((xs j : ZMod PRIME) - xs i)⁻¹

/-- The j-th basis value at 0. -/
def basisValue (xs : Nat → Nat) (k j : Nat) : ZMod PRIME := ∏ i ∈ (Finset.range k).erase j, basisFactor xs j i

/-- One division of the inner loop, in the field. -/
theorem fdiv_eq_basisFactor (alg : InvAlgo) {xs : Nat → Nat} {i j : Nat} (hi : xs i < PRIME) (hj : xs j < PRIME)
    (hne : xs i ≠ xs j) :
    ∃ q, fdiv alg (fsub 0 (xs i)) (fsub (xs j) (xs i)) = .ok q ∧ (q : ZMod PRIME) = basisFactor xs j i := by
  have := Fact.mk prime_PRIME
  have h0 : fsub (xs j) (xs i) ≠ 0 := fun h => hne ((fsub_eq_zero_iff hj hi).1 h).symm
  obtain ⟨c, hc, hok⟩ := fdiv_ok alg (fsub 0 (xs i)) (fsub_lt hj hi) h0
  have hinv : (c : ZMod PRIME) = ((xs j : ZMod PRIME) - xs i)⁻¹ := by
    apply eq_inv_of_mul_eq_one_right
    rw [← fsub_cast hj hi, ← fmul_cast, hc, Nat.cast_one]
  exact ⟨_, hok, by rw [fmul_cast, fsub_cast PRIME_pos hi, hinv, Nat.cast_zero, basisFactor]⟩

/-- The inner loop multiplies l by the factors of the listed i other than j. -/
theorem basisLoop_ok (alg : InvAlgo) {xs : Nat → Nat} {j : Nat} (hj : xs j < PRIME) :
    ∀ (is : List Nat) (l : Nat), (∀ i ∈ is, xs i < PRIME) → (∀ i ∈ is, i ≠ j → xs i ≠ xs j) →
      ∃ v, basisLoop alg xs j is l = .ok v ∧
        (v : ZMod PRIME) = l * ((is.filter (· ≠ j)).map (basisFactor xs j)).prod
  | [], l, _, _ => ⟨l, rfl, by simp⟩
  | i :: is, l, hxs, hne => by
    obtain ⟨hi, his⟩ := List.forall_mem_cons.1 hxs
    obtain ⟨hnei, hneis⟩ := List.forall_mem_cons.1 hne
    rw [basisLoop]
    by_cases hij : i = j
    · rw [if_pos hij, List.filter_cons_of_neg (by simpa using hij)]
      exact basisLoop_ok alg hj is l his hneis
    · obtain ⟨q, hq, hcast⟩ := fdiv_eq_basisFactor alg hi hj (hnei hij)
      rw [if_neg hij, hq, List.filter_cons_of_pos (by simpa using hij), List.map_cons, List.prod_cons, ← hcast,
        ← mul_assoc, ← fmul_cast]
      exact basisLoop_ok alg hj is (fmul l q) his hneis

/-- The outer loop adds to acc the listed y_j times their basis values. -/
theorem lagrangeLoop_ok (alg : InvAlgo) {xs : Nat → Nat} (ys : Nat → Nat) {k : Nat} (hxs : ∀ j < k, xs j < PRIME)
    (hne : ∀ i < k, ∀ j < k, i ≠ j → xs i ≠ xs j) :
    ∀ (js : List Nat) (acc : Nat), (∀ j ∈ js, j < k) → acc < PRIME →
      ∃ v, lagrangeLoop alg xs ys k js acc = .ok v ∧ v < PRIME ∧
        (v : ZMod PRIME) = acc + (js.map fun j => (ys j : ZMod PRIME) * basisValue xs k j).sum
  | [], acc, _, hacc => ⟨acc, rfl, hacc, by simp⟩
  | j :: js, acc, hlt, hacc => by
    obtain ⟨hj, hjs⟩ := List.forall_mem_cons.1 hlt
    obtain ⟨l, hl, hcast⟩ := basisLoop_ok alg (hxs j hj) (List.range k) 1
      (fun i hi => hxs i (List.mem_range.1 hi)) (fun i hi => hne i (List.mem_range.1 hi) j hj)
    have hbasis : (l : ZMod PRIME) = basisValue xs k j := by
      rw [hcast, Nat.cast_one, one_mul, basisValue, ← Finset.filter_ne']
      rfl
    rw [lagrangeLoop, hl, List.map_cons, List.sum_cons, ← hbasis, ← add_assoc, ← fmul_cast,
      ← fadd_cast hacc (fmul_lt _ _)]
    exact lagrangeLoop_ok alg ys hxs hne js _ hjs (fadd_lt hacc (fmul_lt _ _))

theorem lagrange0_ok (alg : InvAlgo) {xs : Nat → Nat} (ys : Nat → Nat) {k : Nat} (hxs : ∀ j < k, xs j < PRIME)
    (hne : ∀ i < k, ∀ j < k, i ≠ j → xs i ≠ xs j) :
    ∃ v, lagrange0 alg xs ys k = .ok v ∧ v < PRIME ∧
      (v : ZMod PRIME) = ∑ j ∈ Finset.range k, (ys j : ZMod PRIME) * basisValue xs k j := by
  obtain ⟨v, hok, hv, hcast⟩ := lagrangeLoop_ok alg ys hxs hne (List.range k) 0 (fun _ => List.mem_range.1) PRIME_pos
  refine ⟨v, hok, hv, ?_⟩
  rw [hcast, Nat.cast_zero, zero_add]
  rfl

/-! ### The polynomial through the shares -/

section
variable [Fact (Nat.Prime PRIME)]

/-- The polynomial of least degree through the points (xs j, ys j), j below k. -/
noncomputable def sharePolynomial (xs ys : Nat → Nat) (k : Nat) : (ZMod PRIME)[X] :=
  Lagrange.interpolate (Finset.range k) (fun j => (xs j : ZMod PRIME)) (fun j => (ys j : ZMod PRIME))

/-- Its value at 0 is the sum that Lagrange0 computes. -/
theorem eval_zero_sharePolynomial (xs ys : Nat → Nat) (k : Nat) :
    (sharePolynomial xs ys k).eval 0 = ∑ j ∈ Finset.range k, (ys j : ZMod PRIME) * basisValue xs k j := by
  simp only [sharePolynomial, Lagrange.interpolate_apply, eval_finsetSum, eval_mul, eval_C, Lagrange.basis, eval_prod,
    Lagrange.basisDivisor, eval_sub, eval_X, basisValue, basisFactor, mul_comm]

theorem injOn_cast {xs : Nat → Nat} {k : Nat} (hxs : ∀ j < k, xs j < PRIME)
    (hne : ∀ i < k, ∀ j < k, i ≠ j → xs i ≠ xs j) :
    Set.InjOn (fun j => (xs j : ZMod PRIME)) (Finset.range k) := by
  intro i hi j hj heq
  have hi := Finset.mem_range.1 hi
  have hj := Finset.mem_range.1 hj
  exact not_not.1 fun hij => hne i hi j hj hij (eq_of_cast (hxs i hi) (hxs j hj) heq)

/-- A share at x = 0 is the value at 0 (43_reconstruction.md R236). -/
theorem eval_zero_sharePolynomial_of_node {xs : Nat → Nat} (ys : Nat → Nat) {k j : Nat} (hxs : ∀ j < k, xs j < PRIME)
    (hne : ∀ i < k, ∀ j < k, i ≠ j → xs i ≠ xs j) (hj : j < k) (h0 : xs j = 0) :
    (sharePolynomial xs ys k).eval 0 = ys j := by
  have hnode := Lagrange.eval_interpolate_at_node (fun j => (ys j : ZMod PRIME)) (injOn_cast hxs hne)
    (Finset.mem_range.2 hj)
  simpa only [sharePolynomial, h0, Nat.cast_zero] using hnode

/-- The polynomial with the t coefficients a (42_share_generation.md R210). -/
noncomputable def secretPolynomial (a : Nat → Nat) (t : Nat) : (ZMod PRIME)[X] :=
  ∑ i ∈ Finset.range t, C (a i : ZMod PRIME) * X ^ i

theorem degree_secretPolynomial_lt (a : Nat → Nat) (t : Nat) : (secretPolynomial a t).degree < t := by
  rw [degree_lt_iff_coeff_zero]
  intro m hm
  rw [secretPolynomial, finsetSum_coeff]
  refine Finset.sum_eq_zero fun i hi => ?_
  have hi := Finset.mem_range.1 hi
  rw [coeff_C_mul_X_pow, if_neg (by omega)]

theorem eval_secretPolynomial (a : Nat → Nat) (t x : Nat) :
    (secretPolynomial a t).eval (x : ZMod PRIME) = ((∑ i ∈ Finset.range t, a i * x ^ i : Nat) : ZMod PRIME) := by
  simp only [secretPolynomial, eval_finsetSum, eval_mul, eval_pow, eval_C, eval_X, Nat.cast_sum, Nat.cast_mul,
    Nat.cast_pow]

/-- Points of one polynomial with at most as many coefficients as points determine it (43_reconstruction.md R235). -/
theorem sharePolynomial_eq_secretPolynomial {xs ys a : Nat → Nat} {t k : Nat} (htk : t ≤ k)
    (hxs : ∀ j < k, xs j < PRIME) (hne : ∀ i < k, ∀ j < k, i ≠ j → xs i ≠ xs j)
    (hys : ∀ j < k, ys j = (∑ i ∈ Finset.range t, a i * xs j ^ i) % PRIME) :
    sharePolynomial xs ys k = secretPolynomial a t := by
  refine (Lagrange.eq_interpolate_of_eval_eq _ (injOn_cast hxs hne) ?_ fun j hj => ?_).symm
  · rw [Finset.card_range]
    exact (degree_secretPolynomial_lt a t).trans_le (Nat.cast_le.2 htk)
  · rw [eval_secretPolynomial, hys j (Finset.mem_range.1 hj), ZMod.natCast_mod]

theorem eval_zero_secretPolynomial (a : Nat → Nat) {t : Nat} (ht : 1 ≤ t) :
    (secretPolynomial a t).eval 0 = (a 0 : ZMod PRIME) := by
  have hconst : ∑ i ∈ Finset.range t, a i * 0 ^ i = a 0 := by
    rw [Finset.sum_eq_single_of_mem 0 (Finset.mem_range.2 ht) fun i _ h0 => by rw [zero_pow h0, mul_zero], pow_zero,
      mul_one]
  rw [← Nat.cast_zero, eval_secretPolynomial, hconst]

end

/-! ### RECONSTRUCT on a canonical window (43_reconstruction.md R231) -/

/-- The x-coordinate of share j of the window. -/
def windowX (s : State) : Nat → Nat := fun j => shareX s (s.recBase.toNat + j)

/-- The y-coordinate of share j of the window. -/
def windowY (s : State) : Nat → Nat := fun j => shareY s (s.recBase.toNat + j)

theorem windowX_eq_iff {s : State} {i j : Nat} : windowX s i = windowX s j ↔
    Memory.read s.sx (s.recBase.toNat + i) = Memory.read s.sx (s.recBase.toNat + j) :=
  BitVec.toNat_inj

section
variable {s : State} (rd : RegIdx) (hbound : s.recBase.toNat + s.recCount.toNat ≤ s.params.maxShares)
  (hcanon : ∀ j < s.recCount.toNat, windowX s j < PRIME ∧ windowY s j < PRIME)

include hbound hcanon

/-- Past its two checks RECONSTRUCT writes the value that Lagrange0 answers. -/
theorem exec_reconstruct_of_ok {v : Nat}
    (hok : lagrange0 s.params.invAlgo (windowX s) (windowY s) s.recCount.toNat = .ok v) :
    exec (.reconstruct rd) s = .next (completed (s.f.set rd.val (BitVec.ofNat 256 v)) s.sx s.sy s.ndraws s) := by
  have hwindow := (windowCanon_iff s _ _).2 hcanon
  unfold windowX windowY at hok
  simp only [exec, execReconstruct, if_neg (Nat.not_lt.2 hbound), hwindow, Bool.true_eq_false, if_false, hok]
  rfl

/-- And it takes the error that Lagrange0 raises. -/
theorem exec_reconstruct_of_error {e : CmdError}
    (herr : lagrange0 s.params.invAlgo (windowX s) (windowY s) s.recCount.toNat = .error e) :
    exec (.reconstruct rd) s = takeError e s := by
  have hwindow := (windowCanon_iff s _ _).2 hcanon
  unfold windowX windowY at herr
  simp only [exec, execReconstruct, if_neg (Nat.not_lt.2 hbound), hwindow, Bool.true_eq_false, if_false, herr]

theorem exec_reconstruct_of_repeated {i j : Nat} (hi : i < s.recCount.toNat) (hj : j < s.recCount.toNat) (hij : i ≠ j)
    (heq : windowX s i = windowX s j) :
    exec (.reconstruct rd) s = .next (aborted .divisionByZero s.sx s.sy s.ndraws s) := by
  rw [exec_reconstruct_of_error rd hbound hcanon (lagrange0_of_repeated s.params.invAlgo (windowY s)
    (fun j hj => (hcanon j hj).1) hi hj hij heq), takeError_eq s (by decide)]

variable (hne : ∀ i < s.recCount.toNat, ∀ j < s.recCount.toNat, i ≠ j → windowX s i ≠ windowX s j)

include hne

/-- Without a repeated x RECONSTRUCT writes the canonical value of the Lagrange sum. -/
theorem exec_reconstruct_eq_sum : ∃ v, v < PRIME ∧
    (v : ZMod PRIME) =
      ∑ j ∈ Finset.range s.recCount.toNat, (windowY s j : ZMod PRIME) * basisValue (windowX s) s.recCount.toNat j ∧
    exec (.reconstruct rd) s = .next (completed (s.f.set rd.val (BitVec.ofNat 256 v)) s.sx s.sy s.ndraws s) := by
  obtain ⟨v, hok, hv, hcast⟩ := lagrange0_ok s.params.invAlgo (windowY s) (fun j hj => (hcanon j hj).1) hne
  exact ⟨v, hv, hcast, exec_reconstruct_of_ok rd hbound hcanon hok⟩

/-- So what it writes is any canonical value equal in the field to the shares' polynomial at 0. -/
theorem exec_reconstruct_eq_of_eval [Fact (Nat.Prime PRIME)] {w : Nat} (hw : w < PRIME)
    (heval : (sharePolynomial (windowX s) (windowY s) s.recCount.toNat).eval 0 = (w : ZMod PRIME)) :
    exec (.reconstruct rd) s = .next (completed (s.f.set rd.val (BitVec.ofNat 256 w)) s.sx s.sy s.ndraws s) := by
  obtain ⟨v, hv, hcast, hexec⟩ := exec_reconstruct_eq_sum rd hbound hcanon hne
  obtain rfl : v = w := eq_of_cast hv hw (by rw [hcast, ← heval, eval_zero_sharePolynomial])
  exact hexec

/-- The same where the value at 0 is the y of a share of the window. -/
theorem exec_reconstruct_eq_y_of_eval [Fact (Nat.Prime PRIME)] {j : Nat} (hj : j < s.recCount.toNat)
    (heval : (sharePolynomial (windowX s) (windowY s) s.recCount.toNat).eval 0 = (windowY s j : ZMod PRIME)) :
    exec (.reconstruct rd) s =
      .next (completed (s.f.set rd.val (Memory.read s.sy (s.recBase.toNat + j))) s.sx s.sy s.ndraws s) := by
  have hread : BitVec.ofNat 256 (windowY s j) = Memory.read s.sy (s.recBase.toNat + j) := by
    rw [windowY, shareY, BitVec.ofNat_toNat, BitVec.setWidth_eq]
  rw [← hread]
  exact exec_reconstruct_eq_of_eval rd hbound hcanon hne (hcanon j hj).2 heval

end

/-! ### The obligations -/

/-- Settles O28: the loops compute the Lagrange sum. -/
theorem reconstructResult : Obligations.ReconstructResult := by
  intro s rd k x y hk hx hy hbound hcanon hne
  obtain rfl : x = windowX s := funext hx
  obtain rfl : y = windowY s := funext hy
  subst hk
  exact exec_reconstruct_eq_sum rd hbound hcanon hne

/-- Settles O29: a repeated x stops Lagrange0, and a completion without one leaves no error code. -/
theorem reconstructFailsExactlyOnDuplicates : Obligations.ReconstructFailsExactlyOnDuplicates := by
  intro s rd k hk hnone hbound hcanon
  subst hk
  have hcompletes (hno : ¬ ∃ i < s.recCount.toNat, ∃ j < s.recCount.toNat, i ≠ j ∧
      Memory.read s.sx (s.recBase.toNat + i) = Memory.read s.sx (s.recBase.toNat + j)) : ∃ v, v < PRIME ∧
      exec (.reconstruct rd) s = .next (completed (s.f.set rd.val (BitVec.ofNat 256 v)) s.sx s.sy s.ndraws s) := by
    obtain ⟨v, hv, -, hexec⟩ := exec_reconstruct_eq_sum rd hbound hcanon
      fun i hi j hj hij heq => hno ⟨i, hi, j, hj, hij, windowX_eq_iff.1 heq⟩
    exact ⟨v, hv, hexec⟩
  refine ⟨⟨fun habort => not_not.1 fun hno => ?_, ?_⟩, hcompletes⟩
  · obtain ⟨v, -, hexec⟩ := hcompletes hno
    rw [habort] at hexec
    have hcode : some .divisionByZero = s.errcode := congrArg State.errcode (Host.Outcome.next.inj hexec)
    rw [hnone] at hcode
    cases hcode
  · rintro ⟨i, hi, j, hj, hij, heq⟩
    exact exec_reconstruct_of_repeated rd hbound hcanon hi hj hij (windowX_eq_iff.2 heq)

/-- Settles O30: the empty sum, and the sum of one share with the empty product. -/
theorem reconstructEmptyAndSingle : Obligations.ReconstructEmptyAndSingle := by
  have := Fact.mk prime_PRIME
  intro s rd
  constructor
  · intro hcount hbase
    have hk : s.recCount.toNat = 0 := by rw [hcount]; rfl
    refine exec_reconstruct_eq_of_eval rd (by omega) (by omega) (by omega) PRIME_pos ?_
    rw [eval_zero_sharePolynomial, hk, Finset.sum_range_zero, Nat.cast_zero]
  · intro hcount hbound hx hy
    have hk : s.recCount.toNat = 1 := by rw [hcount]; rfl
    have hcanon : ∀ j < s.recCount.toNat, windowX s j < PRIME ∧ windowY s j < PRIME := by
      intro j hj
      obtain rfl : j = 0 := by omega
      exact ⟨hx, hy⟩
    refine exec_reconstruct_eq_y_of_eval (j := 0) rd (by omega) hcanon (by omega) (by omega) ?_
    rw [eval_zero_sharePolynomial, hk]
    simp [basisValue]

/-- Settles O31: the shares' polynomial goes through the share at 0. -/
theorem reconstructShareAtZero : Obligations.ReconstructShareAtZero := by
  have := Fact.mk prime_PRIME
  intro s rd k j hk hbound hcanon hdistinct hj h0
  subst hk
  have hne : ∀ i < s.recCount.toNat, ∀ l < s.recCount.toNat, i ≠ l → windowX s i ≠ windowX s l :=
    fun i hi l hl hil heq => hdistinct i hi l hl hil (windowX_eq_iff.1 heq)
  have hx0 : windowX s j = 0 := by rw [windowX, shareX, h0]; rfl
  exact exec_reconstruct_eq_y_of_eval rd hbound hcanon hne hj
    (eval_zero_sharePolynomial_of_node _ (fun i hi => (hcanon i hi).1) hne hj hx0)

/-- Settles O32: the shares' polynomial is the one they were made from. -/
theorem reconstructRecoversSecret : Obligations.ReconstructRecoversSecret := by
  have := Fact.mk prime_PRIME
  intro s rd t k a hk hbound ht htk ha hx hdistinct hy
  subst hk
  have hne : ∀ i < s.recCount.toNat, ∀ j < s.recCount.toNat, i ≠ j → windowX s i ≠ windowX s j :=
    fun i hi j hj hij heq => hdistinct i hi j hj hij (windowX_eq_iff.1 heq)
  have hcanon : ∀ j < s.recCount.toNat, windowX s j < PRIME ∧ windowY s j < PRIME :=
    fun j hj => ⟨hx j hj, (hy j hj).trans_lt (Nat.mod_lt _ PRIME_pos)⟩
  refine exec_reconstruct_eq_of_eval rd hbound hcanon hne (ha 0 ht) ?_
  rw [sharePolynomial_eq_secretPolynomial (xs := windowX s) (ys := windowY s) htk hx hne hy,
    eval_zero_secretPolynomial a ht]

end Sys2Proof.Proofs
end

section
/-! PROOFS, 44_control.md. The core's turn on the latched command, the accept and NOP; what a core step hides and when
it ends a command; then a command that waits for its draw: the two hangs, and the steps that end a wait. -/

namespace Sys2Proof.Proofs

open Sys2Proof.Machine Sys2Proof.Laws

/-! ### The core's turn, the accept, NOP -/

/-- A busy core's turn runs one core step of the latched command. -/
theorem step_core {s : State} {i : Instr} (hp : s.phase = .exec) (hd : decode s.cur = some i)
    (hu : upcoming s = .core) : step s = exec i (advance s) := by
  rw [step_turn hu]
  exact coreTurn_command ((advance_phase s).trans hp) (by rw [advance_cur, hd])

/-- Settles O1: the turn is taken off, from the schedule or from the cycle, and the core's turn runs the command. -/
theorem stepRunsLatchedCommand : Obligations.StepRunsLatchedCommand := by
  intro s i hp hd
  refine ⟨step_core hp hd, fun rest hs => ?_, fun rest hs hc => ?_⟩
  · obtain ⟨hu, hadv⟩ := upcoming_schedule hs
    rw [step_core hp hd hu, hadv]
  · obtain ⟨hu, hadv⟩ := upcoming_cycle hs hc
    rw [step_core hp hd hu, hadv]

/-- Settles O7: NOP is the completion. -/
theorem nopCompletes : Obligations.NopCompletes := fun s => congrArg Host.Outcome.next (complete_eq s)

/-- Settles O55: CMD stands at 0x018, and its write is the accept unless the block is busy or FATAL. -/
theorem acceptCommandWrite : Obligations.AcceptCommandWrite := by
  intro s w
  refine ⟨fun hp hf => ?_, writeCmd_blocked w⟩
  have hopen : ¬ (s.busy || s.fatal) = true := by simp [(busy_false_iff s).2 hp, hf]
  rw [write_at (l := .cmd) rfl, writeLoc, writeCmd, if_neg hopen]
  rfl

/-! ### Progress and completion -/

/-- Issuing a draw changes nothing that the window shows. -/
theorem locValue_drawing (l : Loc) (st : Stage) (j draws : Nat) (a m : Memory) (s : State) :
    locValue l (drawing st j draws a m s) = locValue l s := by
  cases l <;> rfl

/-- Settles O37: a command that goes on waits or has issued a draw. -/
theorem busyHidesProgress : Obligations.BusyHidesProgress := by
  intro i s t _ h ht
  cases exec_cases h with
  | waiting => exact ⟨rfl, rfl, rfl, fun _ => rfl, rfl⟩
  | started | checked | again | coeffsDone => exact ⟨rfl, rfl, rfl, fun _ => locValue_drawing _ _ _ _ _ _ _, rfl⟩
  | aborted | wiped | nothing | computed | sampled | shared => cases ht

theorem not_draws_start (i : Instr) : ¬ Draws i .start
  | .batch hb => by cases hb

/-- A core step from the start of a command completes it, or issues the first draw of RAND, of RANDNZ or of a GENERATE
that has passed its checks. -/
theorem ran_start_cases {i : Instr} {s t : State} (hs : s.stage = .start) (h : Ran i s t) :
    (t.phase = .idle ∧ t.done = true ∧ t.drawId = s.drawId) ∨ (∃ rd, i = .rand rd ∨ i = .randnz rd) ∨
    ∃ ra, i = .generate ra ∧ 1 < s.genT.toNat ∧ s.genT.toNat ≤ s.genN.toNat ∧ s.genN.toNat ≤ s.params.maxShares ∧
      (readField ra s).toNat < PRIME := by
  have hnone : ¬ Draws i s.stage := hs ▸ not_draws_start i
  cases h with
  | waiting hd => exact absurd hd hnone
  | again k j b hb => exact absurd (.batch hb) hnone
  | coeffsDone ra t n secret b _ hst =>
    rw [hs] at hst
    cases hst
  | started st rd _ hi => exact .inr (.inl ⟨rd, hi.imp And.left And.left⟩)
  | checked ra _ hi ht htn hn hsec => exact .inr (.inr ⟨ra, hi, ht, htn, hn, hsec⟩)
  | aborted | wiped | nothing | computed | sampled | shared => exact .inl ⟨rfl, rfl, rfl⟩

/-- Settles O39: no command named there issues a draw at its start, and an illegal word aborts. -/
theorem drawlessCommandsEndInOneTurn : Obligations.DrawlessCommandsEndInOneTurn := by
  intro s hi hp hs hu hrand hrandnz hgen
  cases hd : decode s.cur with
  | none =>
    have hstep : step s = .next (abortState .illegalCommand (advance s)) := by
      rw [step_turn hu, takeTurn, coreTurn_illegal ((advance_phase s).trans hp) (by rw [advance_cur, hd]),
        takeError_of_ne _ (by decide)]
    exact ⟨_, hstep, rfl, rfl, advance_drawId s⟩
  | some i =>
    obtain ⟨t, ht⟩ := stepNeverFaults s hi
    have hran : Ran i (advance s) t := exec_cases ((step_core hp hd hu).symm.trans ht)
    obtain ⟨hidle, hdone, hdraw⟩ | ⟨rd, rfl | rfl⟩ | ⟨ra, rfl, hchecks⟩ :=
      ran_start_cases ((advance_stage s).trans hs) hran
    · exact ⟨t, ht, hidle, hdone, hdraw.trans (advance_drawId s)⟩
    · exact absurd hd (hrand rd)
    · exact absurd hd (hrandnz rd)
    · have hfails := hgen ra hd
      simp only [readField, advance_genT, advance_genN, advance_params, advance_f] at hchecks hfails
      omega

/-! ### A command that waits for its draw -/

theorem awaitsAnswer_advance {s : State} (h : AwaitsAnswer s) : AwaitsAnswer (advance s) := by
  rw [advance_eq]
  exact h

/-- The core's turn leaves a command whose draw is unanswered where it is. -/
theorem coreTurn_waiting {s : State} (h : AwaitsAnswer s) : coreTurn s = .next s := by
  obtain ⟨hp, ⟨i, hd, hdraws⟩, -, hr⟩ := h
  rw [coreTurn_command hp hd, exec_of_unanswered hdraws hr]

/-- A host write leaves a command waiting, or is the reset. -/
theorem writeLoc_waiting {s : State} (h : AwaitsAnswer s) (l : Loc) (v : Word32) :
    AwaitsAnswer (writeLoc l v s) ∨ (l = .ctrl ∧ v.getLsbD 0 = true) := by
  have hp : s.phase = .exec := h.1
  have hoverrun : AwaitsAnswer (setOverrun s) := h
  cases l with
  | ctrl =>
    rw [writeLoc]
    split
    · exact .inr ⟨rfl, ‹_›⟩
    · exact .inl h
  | cmd =>
    rw [writeLoc, writeCmd, if_pos (by simp [(busy_iff s).2 hp])]
    exact .inl hoverrun
  | genT | genN | recBase | recCount | sidx | freg | sx | sy =>
    rw [writeLoc_busy hp rfl]
    exact .inl hoverrun
  | status | ie | id | caps | errcode | entropyCount | reserved => exact .inl h

theorem hostRead_waiting {s : State} (h : AwaitsAnswer s) (a : Addr) : AwaitsAnswer (hostRead a s) := by
  unfold hostRead
  split <;> exact h

/-- A step leaves a command waiting, or is the reset, or an answer to its draw. -/
theorem step_waiting {s t : State} (h : AwaitsAnswer s) (hstep : step s = .next t) :
    AwaitsAnswer t ∨ ResetsNext s ∨
      ∃ d r, upcoming s = .entropy d r ∧ (d = none ∨ d = some s.drawId) ∧
        t.phase = .exec ∧ t.ereq = .none ∧ t.reply = some r := by
  have ha := awaitsAnswer_advance h
  obtain ⟨-, ht⟩ | ⟨acc, hu, rfl⟩ | ⟨d, r, hu, rfl⟩ := step_cases hstep
  · rw [coreTurn_waiting ha] at ht
    cases ht
    exact .inl ha
  · cases acc with
    | read a => exact .inl (hostRead_waiting ha a)
    | write a v =>
      obtain hw | ⟨hl, hv⟩ := writeLoc_waiting ha (locOf a) v
      · exact .inl hw
      · exact .inr (.inl (resetsNext_of_ctrl hu hl hv))
  · obtain ⟨-, hnew, heq⟩ | ⟨-, heq⟩ := answerDraw_cases d r (advance s) <;> rw [heq]
    · rw [answersNewest_iff, advance_drawId] at hnew
      exact .inr (.inr ⟨d, r, hu, hnew, ha.1, rfl, rfl⟩)
    · exact .inl ha

/-! ### The two hangs -/

theorem run_succ {s t : State} (h : step s = .next t) (n : Nat) : run (n + 1) s = run n t := by
  simp only [run, h]

theorem run_of_fixed {s : State} (h : step s = .next s) : ∀ n, run n s = .next s
  | 0     => rfl
  | n + 1 => (run_succ h n).trans (run_of_fixed h n)

/-- Where the core alone moves, a step changes nothing while the draw is unanswered. -/
theorem step_unanswered {s : State} (h : AwaitsAnswer s) (hs : s.schedule = []) (hc : s.cycle = [.core]) :
    step s = .next s := by
  obtain ⟨hu, hadv⟩ := upcoming_cycle hs hc
  have hsame : advance s = s := by rw [hadv, setSchedule, ← hs]
  rw [step_turn hu, hsame]
  exact coreTurn_waiting h

/-- Command i waits for a draw of its batch of k, and every draw is to be answered with b. -/
structure AwaitsSame (i : Instr) (k : Nat) (b : Vector Byte 32) (s : State) : Prop where
  awaits   : AwaitsAnswer s
  command  : decode s.cur = some i
  batch    : RunsBatch i s.stage k
  index    : s.loopIdx < k
  form     : Memory.wf s.batchBuf = true
  schedule : s.schedule = []
  cycle    : s.cycle = [.entropy none (.ok b), .core]

/-- A batch whose newest element is 0 issues its next draw, of this round or of a new one. -/
theorem exec_of_zero_sample {i : Instr} {k : Nat} {b : Vector Byte 32} {s : State} (hb : RunsBatch i s.stage k)
    (hidx : s.loopIdx < k) (hwf : Memory.wf s.batchBuf = true) (hr : s.reply = some (.ok b)) (hz : sample b = 0) :
    ∃ j < k, exec i s = .next (drawing s.stage j (s.ndraws + 1) s.coeffA (stored b s) s) := by
  have hmore := (exec_of_batchStep hb).2
  rcases Nat.lt_or_ge (s.loopIdx + 1) k with hlt | hge
  · exact ⟨_, hlt, hmore _ (batchStep_continues hr hlt)⟩
  · have hzero : Memory.read (stored b s) s.loopIdx = 0 := by
      rw [stored, memory_read_write_same _ _ hwf, hz]
      rfl
    exact ⟨0, by omega, hmore _ (batchStep_redraws hr hge ⟨_, hidx, hzero⟩)⟩

section
variable {i : Instr} {k : Nat} {b : Vector Byte 32} {s : State} (h : AwaitsSame i k b s)
include h

theorem step_answer : step s = .next (deliver (.ok b) (setSchedule [.core] s)) := by
  obtain ⟨-, -, hereq, -⟩ := h.awaits
  have htaken : answerDraw none (.ok b) (setSchedule [.core] s) = deliver (.ok b) (setSchedule [.core] s) :=
    answerDraw_taken _ hereq (.inl rfl)
  obtain ⟨hu, hadv⟩ := upcoming_cycle h.schedule h.cycle
  rw [step_turn hu, hadv, takeTurn, htaken]

/-- After the answer the schedule is used up again, so the core's turn starts from s with its draw answered. -/
theorem step_answered : step (deliver (.ok b) (setSchedule [.core] s)) = exec i (deliver (.ok b) s) := by
  obtain ⟨hp, -⟩ := h.awaits
  have hrest : setSchedule [] (deliver (.ok b) (setSchedule [.core] s)) = deliver (.ok b) s := by
    simp only [setSchedule, deliver, h.schedule]
  obtain ⟨hu, hadv⟩ := upcoming_schedule (s := deliver (.ok b) (setSchedule [.core] s)) rfl
  rw [← hrest, ← hadv]
  exact step_core hp h.command hu

/-- The answer and the core's turn after it: one more draw is answered and the command waits for the next. -/
theorem zero_answer_round (hz : sample b = 0) : ∃ u, (∀ n, run (n + 2) s = run n u) ∧ AwaitsSame i k b u ∧
    u.stage = s.stage ∧ u.ndraws = s.ndraws + 1 ∧ u.entropyCount = s.entropyCount := by
  obtain ⟨hp, -⟩ := h.awaits
  obtain ⟨j, hj, hexec⟩ := exec_of_zero_sample (s := deliver (.ok b) s) h.batch h.index h.form rfl hz
  have hturn := (step_answered h).trans hexec
  refine ⟨_, fun n => (run_succ (step_answer h) _).trans (run_succ hturn n), ?_, rfl, rfl, rfl⟩
  exact {
    awaits   := ⟨hp, ⟨i, h.command, .batch h.batch⟩, rfl, rfl⟩
    command  := h.command
    batch    := h.batch
    index    := hj
    form     := memory_write_wf _ _ h.form
    schedule := h.schedule
    cycle    := h.cycle }

end

/-- Where every answer makes a zero, n rounds answer n draws and leave the command waiting. -/
theorem zero_answers_endless {i : Instr} {k : Nat} {b : Vector Byte 32} (hz : sample b = 0) : ∀ (n : Nat) {s : State},
    AwaitsSame i k b s → ∃ t, run (2 * n) s = .next t ∧ AwaitsAnswer t ∧ t.stage = s.stage ∧
      t.ndraws = s.ndraws + n ∧ t.entropyCount = s.entropyCount
  | 0, s, h => ⟨s, rfl, h.awaits, rfl, rfl, rfl⟩
  | n + 1, s, h => by
    obtain ⟨u, hrun, hu, hstage, hdraws, hcount⟩ := zero_answer_round h hz
    obtain ⟨t, ht, hwait, hstage', hdraws', hcount'⟩ := zero_answers_endless hz n hu
    refine ⟨t, (hrun (2 * n)).trans ht, hwait, hstage'.trans hstage, ?_, hcount'.trans hcount⟩
    rw [hdraws', hdraws, Nat.add_assoc, Nat.add_comm 1]

/-- Settles O40: a fixed point of step, an induction over the rounds of answers, and the three agents' turns. -/
theorem hangsAreEndless : Obligations.HangsAreEndless := by
  refine ⟨fun s h hs hc => run_of_fixed (step_unanswered h hs hc), fun s i k b h hd hb hidx hwf hz hs hc n => ?_,
    fun s t => step_waiting⟩
  exact zero_answers_endless hz n ⟨h, hd, hb, hidx, hwf, hs, hc⟩

end Sys2Proof.Proofs
end

section
/-! PROOFS, 60_exceptions.md. What the arithmetic commands and RECONSTRUCT answer where a check fails, and the commands
with a draw on a FAIL answer; then that every new error code is that of an abort, and how the host acknowledges one. -/

namespace Sys2Proof.Proofs

open Sys2Proof.Machine Sys2Proof.Laws

/-! ### ILLEGAL_COMMAND (R275) -/

theorem decode_eq_none_of_not_inTable {w : Word32} (h : inTable w = false) : decode w = none := by
  obtain ⟨hdecode, -⟩ := decodeAcceptsTheTable w
  rwa [h, Option.isSome_eq_false_iff, Option.isNone_iff_eq_none] at hdecode

/-- Settles O2: the word does not decode, and the core's turn then takes ILLEGAL_COMMAND. -/
theorem illegalWordAborts : Obligations.IllegalWordAborts := by
  intro s hp hw hdraws hu
  have hd : decode (advance s).cur = none := by rw [advance_cur, decode_eq_none_of_not_inTable hw]
  rw [step_turn hu, takeTurn, coreTurn_illegal ((advance_phase s).trans hp) hd, takeError_eq _ (by decide), advance_sx,
    advance_sy, advance_ndraws, hdraws]

/-! ### The arithmetic commands where a check fails (R272, R273) -/

section
variable {s : State} {ra rb : RegIdx} {e : CmdError} (rd : RegIdx)

/-- The source is checked before the primitive is computed. -/
theorem unaryOp_malformedInput (op : Nat → Except CmdError Nat) (ha : PRIME ≤ (readField ra s).toNat) :
    unaryOp op rd ra s = .next (aborted .malformedInput s.sx s.sy s.ndraws s) := by
  rw [unaryOp, fieldOperand_error.2 ⟨ha, rfl⟩]
  exact takeError_eq s (by decide)

/-- Either source is enough, whatever the other holds. -/
theorem binaryOp_malformedInput (op : Nat → Nat → Except CmdError Nat)
    (h : PRIME ≤ (readField ra s).toNat ∨ PRIME ≤ (readField rb s).toNat) :
    binaryOp op rd ra rb s = .next (aborted .malformedInput s.sx s.sy s.ndraws s) := by
  obtain ⟨-, hop⟩ | ⟨ha, hb, -⟩ := binaryOp_cases op rd ra rb s
  · rw [hop, takeError_eq s (by decide)]
  · omega

/-- A one-source command whose source is canonical and whose primitive raises e. -/
theorem unaryOp_eq_takeError {op : Nat → Except CmdError Nat} (ha : (readField ra s).toNat < PRIME)
    (hop : op (readField ra s).toNat = .error e) : unaryOp op rd ra s = takeError e s := by
  rw [unaryOp, fieldOperand_ok.2 ⟨ha, rfl⟩]
  simp only [hop]

/-- A two-source command whose sources are canonical and whose primitive raises e. -/
theorem binaryOp_eq_takeError {op : Nat → Nat → Except CmdError Nat} (ha : (readField ra s).toNat < PRIME)
    (hb : (readField rb s).toNat < PRIME) (hop : op (readField ra s).toNat (readField rb s).toNat = .error e) :
    binaryOp op rd ra rb s = takeError e s := by
  rw [binaryOp, fieldOperand_ok.2 ⟨ha, rfl⟩, fieldOperand_ok.2 ⟨hb, rfl⟩]
  simp only [hop]

theorem exec_inv_zero (h0 : (readField ra s).toNat = 0) :
    exec (.inv rd ra) s = .next (aborted .divisionByZero s.sx s.sy s.ndraws s) := by
  have hop : finvChecked s.params.invAlgo (readField ra s).toNat = .error .divisionByZero := if_pos h0
  rw [exec, execInv, unaryOp_eq_takeError rd (h0 ▸ PRIME_pos) hop, takeError_eq s (by decide)]

theorem exec_div_by_zero (ha : (readField ra s).toNat < PRIME) (h0 : (readField rb s).toNat = 0) :
    exec (.div rd ra rb) s = .next (aborted .divisionByZero s.sx s.sy s.ndraws s) := by
  have hop : fdiv s.params.invAlgo (readField ra s).toNat (readField rb s).toNat = .error .divisionByZero := if_pos h0
  rw [exec, execDiv, binaryOp_eq_takeError rd ha (h0 ▸ PRIME_pos) hop, takeError_eq s (by decide)]

/-! ### The two window checks of RECONSTRUCT (R272, R277) -/

theorem exec_reconstruct_capacity (h : s.params.maxShares < s.recBase.toNat + s.recCount.toNat) :
    exec (.reconstruct rd) s = .next (aborted .capacity s.sx s.sy s.ndraws s) := by
  rw [exec, execReconstruct, if_pos h, takeError_eq s (by decide)]

/-- One coordinate of the window that is not canonical is enough, whatever the others hold. -/
theorem exec_reconstruct_malformedInput (hbound : s.recBase.toNat + s.recCount.toNat ≤ s.params.maxShares) {j : Nat}
    (hj : j < s.recCount.toNat) (h : PRIME ≤ windowX s j ∨ PRIME ≤ windowY s j) :
    exec (.reconstruct rd) s = .next (aborted .malformedInput s.sx s.sy s.ndraws s) := by
  have hwindow : windowCanon s s.recBase.toNat s.recCount.toNat = false := by
    refine Bool.eq_false_iff.2 fun hw => ?_
    obtain ⟨hx, hy⟩ := (windowCanon_iff s _ _).1 hw j hj
    exact h.elim (Nat.not_le.2 hx) (Nat.not_le.2 hy)
  rw [exec, execReconstruct, if_neg (Nat.not_lt.2 hbound), if_pos hwindow, takeError_eq s (by decide)]

end

/-- Settles O13: the check of the operands comes before any computation, for GENERATE and RECONSTRUCT after the checks
before it in the order of R278. -/
theorem malformedInputAborts : Obligations.MalformedInputAborts := by
  intro s rd ra rb
  refine ⟨fun h i hi => ?_, fun h => unaryOp_malformedInput rd _ h, fun h hs ht htn hn => ?_,
    fun hbound ⟨j, hj, h⟩ => exec_reconstruct_malformedInput rd hbound hj h⟩
  · simp only [List.mem_cons, List.not_mem_nil, or_false] at hi
    obtain rfl | rfl | rfl | rfl := hi
    · exact binaryOp_malformedInput rd (fun a b => .ok (fadd a b)) h
    · exact binaryOp_malformedInput rd (fun a b => .ok (fsub a b)) h
    · exact binaryOp_malformedInput rd (fun a b => .ok (fmul a b)) h
    · exact binaryOp_malformedInput rd (fdiv s.params.invAlgo) h
  · rw [exec_generate_start hs, generateStart_malformedInput ht htn hn h]

/-- Settles O27: GENERATE's check on n follows those on t and n, RECONSTRUCT's on its window comes first. -/
theorem capacityAborts : Obligations.CapacityAborts := by
  intro s r
  refine ⟨fun hs ht htn hn => ?_, exec_reconstruct_capacity r⟩
  rw [exec_generate_start hs, generateStart_capacity ht htn hn]

/-! ### A FAIL answer (R274) -/

/-- RAND and RANDNZ leave the share memory on a FAIL answer, GENERATE zeroes its entries (R218). -/
theorem exec_of_failed {i : Instr} {s : State} (hd : Draws i s.stage) (hr : s.reply = some .fail) :
    ∃ sx sy, exec i s = .next (aborted .randomnessUnavailable sx sy s.ndraws s) ∧
      ((∀ ra, i ≠ .generate ra) → sx = s.sx ∧ sy = s.sy) := by
  have habort : takeError .randomnessUnavailable s = .next (aborted .randomnessUnavailable s.sx s.sy s.ndraws s) :=
    takeError_eq s (by decide)
  generalize hs : s.stage = st at hd
  obtain rd | hb := hd
  · exact ⟨_, _, by simp only [exec, execRand, hs, hr, habort], fun _ => ⟨rfl, rfl⟩⟩
  obtain rd | ⟨ra, t, n, secret⟩ | ⟨ra, t, n, secret⟩ := hb
  · exact ⟨_, _, by simp only [exec, execRandnz, hs, batchStep_failed 1 hr, habort], fun _ => ⟨rfl, rfl⟩⟩
  · exact ⟨_, _, exec_generate_failed ra (.inl hs) hr, fun hg => absurd rfl (hg ra)⟩
  · exact ⟨_, _, exec_generate_failed ra (.inr hs) hr, fun hg => absurd rfl (hg ra)⟩

/-- An abort leaves the block idle: a write to CMD is accepted unless FATAL was set before. -/
theorem accept_after_abort {s : State} (e : CmdError) (sx sy : Memory) (draws : Nat) (w : Word32)
    (hf : s.fatal = false) :
    hostAccess (.write 0x018 w) (aborted e sx sy draws s) = acceptCommand w (aborted e sx sy draws s) :=
  (acceptCommandWrite _ w).1 rfl hf

/-- Settles O21: each of the three commands takes the error at its failed draw, and the block is idle after it. -/
theorem randomnessUnavailableAborts : Obligations.RandomnessUnavailableAborts := by
  intro s i hd hr
  obtain ⟨sx, sy, hexec, hshares⟩ := exec_of_failed hd hr
  exact ⟨sx, sy, hexec, hshares, fun hf w => accept_after_abort _ sx sy _ w hf⟩

/-! ### Every new error code is an abort's (R273, R276) -/

/-- A core step that raises e where there was no error code has aborted the command with e. It has kept the share memory
but for a GENERATE that RANDOMNESS_UNAVAILABLE aborts, and GENERATE never raises DIVISION_BY_ZERO. -/
theorem ran_new_errcode {i : Instr} {s t : State} {e : CmdError} (h : Ran i s t) (hnone : s.errcode = none)
    (hcode : t.errcode = some e) :
    ∃ sx sy, t = aborted e sx sy s.ndraws s ∧
      ((∀ ra, i ≠ .generate ra) ∨ e ≠ .randomnessUnavailable → sx = s.sx ∧ sy = s.sy) ∧
      (∀ ra, i = .generate ra → e ≠ .divisionByZero) := by
  have hchanged : t.errcode ≠ s.errcode := by
    rw [hcode, hnone]
    nofun
  cases h with
  | waiting | started | checked | again | coeffsDone | nothing | computed | sampled | shared =>
    exact absurd rfl hchanged
  | aborted _ _ _ _ hdiv =>
    cases hcode
    exact ⟨_, _, rfl, fun _ => ⟨rfl, rfl⟩, hdiv⟩
  | wiped ra t n secret hi =>
    cases hcode
    refine ⟨_, _, rfl, fun hkept => ?_, fun _ _ => by decide⟩
    obtain hg | hother := hkept
    · exact absurd hi (hg ra)
    · exact absurd rfl hother

/-- Settles O14: the zero tests of INV and DIV, the repeated x of RECONSTRUCT, and every abort of GENERATE. -/
theorem divisionByZeroAborts : Obligations.DivisionByZeroAborts := by
  intro s rd ra rb
  refine ⟨fun h0 => exec_inv_zero rd (by rw [h0]; rfl), fun ha h0 => exec_div_by_zero rd ha (by rw [h0]; rfl),
    fun hbound hcanon ⟨i, hi, j, hj, hij, heq⟩ =>
      exec_reconstruct_of_repeated rd hbound hcanon hi hj hij (windowX_eq_iff.2 heq), fun t ht hnone hcode => ?_⟩
  obtain ⟨sx, sy, -, -, hdiv⟩ := ran_new_errcode (exec_cases ht) hnone hcode
  exact hdiv ra rfl rfl

/-- Settles O36: an abort writes nothing but the share memory of a failed GENERATE. -/
theorem noPartialResults : Obligations.NoPartialResults := by
  intro i s t e ht hnone hcode
  obtain ⟨sx, sy, rfl, hshares, -⟩ := ran_new_errcode (exec_cases ht) hnone hcode
  exact ⟨rfl, hshares, rfl, rfl, rfl, rfl, rfl, rfl, rfl⟩

/-! ### The interrupt (R282) -/

/-- Bit n of IE is the enable whose place n is (10_state.md R60). -/
theorem ieWord_bit (s : State) (n : Nat) : (ieWord s).getLsbD n =
    (if n = 0 then s.doneIE else if n = 1 then s.errIE else false) := by
  rw [ieWord, BitVec.getLsbD_or, bitAt_bit 0 _ n (by decide), bitAt_bit 1 _ n (by decide)]
  split_ifs <;> simp [*]

/-- The level of IRQ (10_state.md R74). -/
theorem irq_iff (s : State) :
    s.irq = true ↔ (s.done = true ∧ s.doneIE = true) ∨ (s.err = true ∧ s.errIE = true) := by
  simp only [State.irq, Bool.or_eq_true, Bool.and_eq_true]

theorem irq_eq_false_iff (s : State) :
    s.irq = false ↔ ¬ (s.done = true ∧ s.doneIE = true) ∧ ¬ (s.err = true ∧ s.errIE = true) := by
  rw [← Bool.not_eq_true, irq_iff, not_or]

/-- A cause that is written with 1 wherever it is enabled (10_state.md R55, R56) is no longer pending. -/
theorem not_pending_of_acknowledged : ∀ {cause enable written : Bool},
    (cause = true ∧ enable = true → written = true) → ¬ ((cause && !written) = true ∧ enable = true) := by
  decide

/-- Settles O58: a write to STATUS clears the causes written with 1, one to IE the enables, the accept both causes. -/
theorem interruptAcknowledged : Obligations.InterruptAcknowledged := by
  intro s v w n
  refine ⟨?_, write_at (l := .ie) rfl v s, irq_iff s, fun hdone herr => ?_, ?_, fun hp hf => ?_⟩
  · rw [read_plain_value (l := .ie) rfl rfl]
    exact ieWord_bit s n
  · rw [write_at (l := .status) rfl, writeLoc, irq_eq_false_iff, writeStatus_done, writeStatus_doneIE, writeStatus_err,
      writeStatus_errIE]
    exact ⟨not_pending_of_acknowledged hdone, not_pending_of_acknowledged herr⟩
  · rw [write_at (l := .ie) rfl, writeLoc, irq_eq_false_iff]
    simp
  · rw [(acceptCommandWrite s w).1 hp hf]
    rfl

end Sys2Proof.Proofs
end

section
/-! PROOFS, 70_reset_and_hazards.md. The parameters under the turn of each of the three agents, the host's reset among
them. -/

namespace Sys2Proof.Proofs

open Sys2Proof.Machine Sys2Proof.Laws

/-- The core's turn does nothing, aborts an illegal word, or runs a core step of the latched command. -/
theorem coreTurn_params {s t : State} (h : coreTurn s = .next t) : t.params = s.params := by
  cases hp : s.phase with
  | idle =>
    rw [coreTurn_idle hp] at h
    cases h
    rfl
  | exec =>
    cases hd : decode s.cur with
    | none =>
      rw [coreTurn_illegal hp hd] at h
      obtain ⟨-, rfl⟩ := takeError_next.1 h
      exact abortState_params s .illegalCommand
    | some i =>
      rw [coreTurn_command hp hd] at h
      exact (frameHostRegisters i s t h).1

theorem answerDraw_params (d : Option Nat) (r : Reply) (s : State) : (answerDraw d r s).params = s.params := by
  obtain ⟨-, -, h⟩ | ⟨-, h⟩ := answerDraw_cases d r s <;> rw [h]
  exact deliver_params s r

/-- Settles O45: taking the turn off keeps the parameters, and so does the turn, whichever of the three agents' it is. -/
theorem parametersNeverChange : Obligations.ParametersNeverChange := by
  intro s t h
  have hadv : (advance s).params = s.params := advance_params s
  obtain ⟨-, ht⟩ | ⟨a, -, rfl⟩ | ⟨d, r, -, rfl⟩ := step_cases h
  · exact (coreTurn_params ht).trans hadv
  · exact (hostAccess_params a (advance s)).1.trans hadv
  · exact (answerDraw_params d r (advance s)).trans hadv

end Sys2Proof.Proofs
end
